-- ==== Sys2Proof/Word.lean ====
section
/-! DEFINITION. The words of FRM and their plainest arithmetic (00_scope.md R7, R8). -/

namespace Sys2Proof

/-- A byte, `u8` (R7, R8). -/
abbrev Byte := BitVec 8

/-- A control and status register, `CSR_WIDTH` = 32 bits (R7). -/
abbrev Word32 := BitVec 32

/-- `u8(v)` is `v mod 256` (R8). -/
def u8 (v : Nat) : Byte := BitVec.ofNat 8 v

/-- `Σ L`, the integer sum of the elements of a list of bytes (R8). -/
def byteSum : List Byte → Nat
  | [] => 0
  | b :: bs => b.toNat + byteSum bs

end Sys2Proof
end

