-- ==== Sys2Proof/Syntax.lean ====
section
/-! DEFINITION. The operations of FRM with their operands (30_encoding.md R56), the records they carry
(10_state.md R24, R25), and the form in which an operation stands on the interface (R55). -/

namespace Sys2Proof

/-- The three agents that drive FRM (00_scope.md R5). -/
inductive Agent where
  | host
  | txs
  | rxl
  deriving DecidableEq, Repr

/-- A TX request, the operand of TX_SUBMIT (10_state.md R24). `data` may have any length. -/
structure TxRequest where
  flags : Byte
  did : Byte
  cid : Byte
  seq : Byte
  data : List Byte
  deriving DecidableEq, Repr, Inhabited

/-- A received frame, the value RX_POP and DECODE deliver (10_state.md R25). -/
structure RxFrame where
  sop2 : Byte
  mrsp : Byte
  seq : Byte
  dlen : Byte
  data : List Byte
  chkPresent : Bool
  chk : Byte
  chkOk : Bool
  deriving DecidableEq, Repr, Inhabited

/-- The ten operations, one constructor for each row of the opcode table (30_encoding.md R56). -/
inductive Instr where
  /-- TX_SUBMIT, opcode 0x1 (R66). -/
  | txSubmit (r : TxRequest)
  /-- TX_EMIT, opcode 0x2 (R67). -/
  | txEmit
  /-- RX_BYTE, opcode 0x3 (R70). -/
  | rxByte (b : Byte)
  /-- RX_POP, opcode 0x4 (R75). -/
  | rxPop
  /-- DECODE, opcode 0x5 (R76). -/
  | decode (buf : List Byte)
  /-- EXTRACT_INT, opcode 0x6 (R78). -/
  | extractInt (f : RxFrame) (nbytes : BitVec 4) (start : BitVec 16)
  /-- EXTRACT_STR, opcode 0x7 (R79). -/
  | extractStr (f : RxFrame) (start : BitVec 16) (count : BitVec 16)
  /-- CSR_RD, opcode 0x8 (R80). -/
  | csrRd (idx : BitVec 8)
  /-- CSR_WR, opcode 0x9 (R81). -/
  | csrWr (idx : BitVec 8) (val : Word32)
  /-- RESET, opcode 0xA (R82). -/
  | reset
  deriving DecidableEq, Repr

/-- One typed operand as the interface carries it, whole and with its width (R55, R56, R58). -/
inductive Operand where
  | u4 (v : BitVec 4)
  | u8 (v : Byte)
  | u16 (v : BitVec 16)
  | u32 (v : Word32)
  | bytes (v : List Byte)
  | frame (v : RxFrame)
  deriving DecidableEq, Repr

/-- An operation as it stands on the interface: a 4-bit opcode plus typed operands passed whole
(R55; log 1: there is no packed instruction word). -/
structure Transaction where
  opcode : BitVec 4
  operands : List Operand
  deriving DecidableEq, Repr

/-- The pseudo-operation TX_CMD stands for one TX_SUBMIT with flags 0x01 and no payload (R62). -/
def Instr.txCmd (did cid seq : Byte) : Instr :=
  .txSubmit ⟨0x01#8, did, cid, seq, []⟩

/-- The pseudo-operation STATUS_CLR stands for one CSR_WR that clears both sticky bits (R62). -/
def Instr.statusClr : Instr :=
  .csrWr 0x01#8 0x00000018#32

end Sys2Proof
end

