-- ==== Sys2Proof/Config.lean ====
section
/-! DEFINITION. What is fixed for the machine: the parameters of 00_scope.md R7, and the free values that
stand for the registers RESET leaves unspecified (43_control.md R82; log 8). -/

namespace Sys2Proof.Config

/-- `MAX_PAYLOAD` (R7): the longest payload of a frame, in bytes. -/
abbrev maxPayload : Nat := 255

/-- `TX_HDR` (R7): SOP1, SOP2, DID, CID, SEQ, DLEN. -/
abbrev txHdr : Nat := 6

/-- `TX_FRAME_MAX` (R7). -/
abbrev txFrameMax : Nat := 262

/-- `RX_HDR` (R7): SOP1, SOP2, MRSP, SEQ, DLEN. -/
abbrev rxHdr : Nat := 5

/-- `RX_FRAME_MAX` (R7). -/
abbrev rxFrameMax : Nat := 261

/-- `SOP1` (R7): the start marker. -/
abbrev sop1 : Byte := 0xFF#8

/-- `EXTRACT_MAX_N` (R7): the widest integer EXTRACT_INT composes, in bytes. -/
abbrev extractMaxN : Nat := 8

/-- `RX_OUT_DEPTH` (R7): one output holding register, `outValid` and `outFrame` of State. -/
abbrev rxOutDepth : Nat := 1

/-- `TX_IN_FLIGHT` (R7): one frame in flight, `txBuf` of State. -/
abbrev txInFlight : Nat := 1

/-- Free value: `rx_sop2` after the n-th RESET, unspecified (R82; log 8). -/
opaque freeRxSop2 : Nat → Byte

/-- Free value: `rx_mrsp` after the n-th RESET, unspecified (R82; log 8). -/
opaque freeRxMrsp : Nat → Byte

/-- Free value: `rx_seq` after the n-th RESET, unspecified (R82; log 8). -/
opaque freeRxSeq : Nat → Byte

/-- Free value: `rx_dlen` after the n-th RESET, unspecified (R82; log 8). -/
opaque freeRxDlen : Nat → Byte

/-- Free value: `rx_sum` after the n-th RESET, unspecified (R82; log 8). -/
opaque freeRxSum : Nat → Byte

/-- Free value: `out_frame` after the n-th RESET, unspecified (R82; log 8). -/
opaque freeOutFrame : Nat → RxFrame

end Sys2Proof.Config
end

