-- ==== Sys2Proof/WellFormed.lean ====
section
/-! DEFINITION. The operand domains of 30_encoding.md R57 that the types of Syntax do not already say. -/

namespace Sys2Proof

/-- The invariant of an RxFrame, `len(data) = dlen` (10_state.md R25). -/
def RxFrame.wf (f : RxFrame) : Bool :=
  f.data.length == f.dlen.toNat

/-- `nbytes` of EXTRACT_INT is legal from 1 to 8 (R57). -/
def nbytesLegal (nbytes : BitVec 4) : Bool :=
  1 ≤ nbytes.toNat && nbytes.toNat ≤ Config.extractMaxN

/-- An operation whose operands lie in the domains R57 declares. `data` and `buf` are lists of any length,
checked by their own rules; every value of the other operands is legal. -/
def Instr.wellFormed : Instr → Bool
  | .txSubmit _ => true
  | .txEmit => true
  | .rxByte _ => true
  | .rxPop => true
  | .decode _ => true
  | .extractInt f nbytes _ => f.wf && nbytesLegal nbytes
  | .extractStr f _ _ => f.wf
  | .csrRd _ => true
  | .csrWr _ _ => true
  | .reset => true

end Sys2Proof
end

