-- ==== Sys2Proof/Decode.lean ====
section
/-! DEFINITION. The decoder of operations (30_encoding.md R55 to R59) and, after it, the encoder. -/

namespace Sys2Proof

/-- The ten names of the opcode map, without operands (R56). -/
inductive OpName where
  | txSubmit | txEmit | rxByte | rxPop | decode | extractInt | extractStr | csrRd | csrWr | reset
  deriving DecidableEq, Repr

/-- Why the decoder rejects a transaction. -/
inductive DecodeError where
  /-- A reserved opcode, 0x0 or 0xB..0xF (R59). -/
  | reservedOpcode (opcode : BitVec 4)
  /-- The operands are not the ones R56 gives the opcode, in number, order and width (log 10). -/
  | operandShape (opcode : BitVec 4)
  deriving DecidableEq, Repr

/-- The opcode map, all 16 values (R56, R59). -/
def opNameOf (opcode : BitVec 4) : Option OpName :=
  match opcode.toNat with
  | 0x1 => some .txSubmit
  | 0x2 => some .txEmit
  | 0x3 => some .rxByte
  | 0x4 => some .rxPop
  | 0x5 => some .decode
  | 0x6 => some .extractInt
  | 0x7 => some .extractStr
  | 0x8 => some .csrRd
  | 0x9 => some .csrWr
  | 0xA => some .reset
  | _ => none

/-- The operand list of each operation, in the order and with the widths of R56. -/
def operandsOf (name : OpName) (operands : List Operand) : Option Instr :=
  match name with
  | .txSubmit =>
    match operands with
    | [.u8 flags, .u8 did, .u8 cid, .u8 seq, .bytes data] =>
      some (.txSubmit ⟨flags, did, cid, seq, data⟩)
    | _ => none
  | .txEmit =>
    match operands with
    | [] => some .txEmit
    | _ => none
  | .rxByte =>
    match operands with
    | [.u8 b] => some (.rxByte b)
    | _ => none
  | .rxPop =>
    match operands with
    | [] => some .rxPop
    | _ => none
  | .decode =>
    match operands with
    | [.bytes buf] => some (.decode buf)
    | _ => none
  | .extractInt =>
    match operands with
    | [.frame f, .u4 nbytes, .u16 start] => some (.extractInt f nbytes start)
    | _ => none
  | .extractStr =>
    match operands with
    | [.frame f, .u16 start, .u16 count] => some (.extractStr f start count)
    | _ => none
  | .csrRd =>
    match operands with
    | [.u8 idx] => some (.csrRd idx)
    | _ => none
  | .csrWr =>
    match operands with
    | [.u8 idx, .u32 val] => some (.csrWr idx val)
    | _ => none
  | .reset =>
    match operands with
    | [] => some .reset
    | _ => none

/-- The decoder. A reserved opcode is rejected before any operand is examined (R59, R89). -/
def decodeOp (t : Transaction) : Except DecodeError Instr :=
  match opNameOf t.opcode with
  | none => .error (.reservedOpcode t.opcode)
  | some name =>
    match operandsOf name t.operands with
    | none => .error (.operandShape t.opcode)
    | some i => .ok i

/-- The opcode column of R56. -/
def opcodeOf : Instr → BitVec 4
  | .txSubmit _ => 0x1#4
  | .txEmit => 0x2#4
  | .rxByte _ => 0x3#4
  | .rxPop => 0x4#4
  | .decode _ => 0x5#4
  | .extractInt _ _ _ => 0x6#4
  | .extractStr _ _ _ => 0x7#4
  | .csrRd _ => 0x8#4
  | .csrWr _ _ => 0x9#4
  | .reset => 0xA#4

/-- The operands column of R56. -/
def operandList : Instr → List Operand
  | .txSubmit r => [.u8 r.flags, .u8 r.did, .u8 r.cid, .u8 r.seq, .bytes r.data]
  | .txEmit => []
  | .rxByte b => [.u8 b]
  | .rxPop => []
  | .decode buf => [.bytes buf]
  | .extractInt f nbytes start => [.frame f, .u4 nbytes, .u16 start]
  | .extractStr f start count => [.frame f, .u16 start, .u16 count]
  | .csrRd idx => [.u8 idx]
  | .csrWr idx val => [.u8 idx, .u32 val]
  | .reset => []

/-- The encoder: an operation as it stands on the interface (R55, R56). -/
def encodeOp (i : Instr) : Transaction :=
  ⟨opcodeOf i, operandList i⟩

/-- The agent column of R56: who takes the step. -/
def agentOf : Instr → Agent
  | .txSubmit _ => .host
  | .txEmit => .txs
  | .rxByte _ => .rxl
  | .rxPop => .host
  | .decode _ => .host
  | .extractInt _ _ _ => .host
  | .extractStr _ _ _ => .host
  | .csrRd _ => .host
  | .csrWr _ _ => .host
  | .reset => .host

/-- The frame whose fields are all 0 and whose payload is empty (an operand of zeros). -/
def zeroFrame : RxFrame :=
  ⟨0#8, 0#8, 0#8, 0#8, [], false, 0#8, false⟩

/-- Operands of zeros for each operation: every number 0, every list empty. -/
def zeroOperands : OpName → List Operand
  | .txSubmit => [.u8 0#8, .u8 0#8, .u8 0#8, .u8 0#8, .bytes []]
  | .txEmit => []
  | .rxByte => [.u8 0#8]
  | .rxPop => []
  | .decode => [.bytes []]
  | .extractInt => [.frame zeroFrame, .u4 0#4, .u16 0#16]
  | .extractStr => [.frame zeroFrame, .u16 0#16, .u16 0#16]
  | .csrRd => [.u8 0#8]
  | .csrWr => [.u8 0#8, .u32 0#32]
  | .reset => []

/-- The transaction of an opcode-table word: the opcode is bits 3:0 (the table's only bits), the operands,
to which the table gives no bits, are zeros (log 1). -/
def tableTransaction (nbits w : Nat) : Transaction :=
  let opcode := BitVec.ofNat 4 (w % 2 ^ nbits)
  match opNameOf opcode with
  | none => ⟨opcode, []⟩
  | some name => ⟨opcode, zeroOperands name⟩

/-- What the decoder reads from a word numbered as spec/opcode_table.json numbers it. -/
def decodeTableWord (nbits w : Nat) : Option Instr :=
  match decodeOp (tableTransaction nbits w) with
  | .ok i => some i
  | .error _ => none

end Sys2Proof
end

