-- ==== Sys2Proof/Machine/State.lean ====
section
/-! DEFINITION. The state of FRM (10_state.md R28, every element), the ports as plain data, the responses,
the reasons a step can stop, and the state after reset. -/

namespace Sys2Proof.Machine

/-- `rx_st`, naming the field the next accepted byte will be (10_state.md R20). -/
inductive RxSt where
  | hunt | sop2 | mrsp | seq | dlen | data | chk
  deriving DecidableEq, Repr

/-- The value of a HOST operation's response (30_encoding.md R56, the response column). -/
inductive Value where
  | none
  | frame (f : RxFrame)
  | int (v : BitVec 64)
  | bytes (l : List Byte)
  | word (v : Word32)
  deriving DecidableEq, Repr

/-- The info ILLEGAL_OP records: the opcode, or `nbytes` (60_exceptions.md R83). -/
inductive IllegalInfo where
  | opcode (op : BitVec 4)
  | nbytes (n : BitVec 4)
  deriving DecidableEq, Repr

/-- A response to HOST: success with its value, or a failure with the info R83 records. -/
inductive Response where
  /-- R83 code 0. -/
  | ok (v : Value)
  /-- R83 code 1, raised by TX_SUBMIT; the payload length. -/
  | payloadTooLarge (len : Nat)
  /-- R83 code 2, raised by DECODE; the buffer length. -/
  | malformedFrame (len : Nat)
  /-- R83 code 3; no operation answers a next state with it: ILLEGAL_OP is the fault outcome (R84; log 6). -/
  | illegalOp (info : IllegalInfo)
  /-- An RxFrame operand outside its declared domain, raised by EXTRACT_INT and EXTRACT_STR. R83 gives this fault no row
  of its own: that its response is a failure of its own kind and records no info is the model's choice (log 16).
  No operation answers a next state with it. -/
  | operandOutsideDomain
  deriving DecidableEq, Repr

/-- Why a step ends in the fault outcome of 00_scope.md R10. -/
inductive Fault where
  /-- ILLEGAL_OP (R83 code 3, R84): raised by step on a reserved opcode (R59) and by EXTRACT_INT on `nbytes`
  outside 1..8 (R78). Safe: the spec gives this very outcome; the model stops where HOST could go on (log 6). -/
  | illegalOp (info : IllegalInfo)
  /-- An RxFrame operand outside its declared domain `len(data) = dlen` (R10, R57): raised by EXTRACT_INT and
  EXTRACT_STR. Safe (log 9; its response, log 16). -/
  | operandOutsideDomain
  /-- TX_EMIT reads `tx_buf` past its end, in a state that breaks the invariant of R19; no execution reaches it
  (R23). Safe (log 11). -/
  | txBufOutOfRange
  deriving DecidableEq, Repr

/-- Why a step has no meaning. -/
inductive Refusal where
  /-- An operation exec gives no meaning to. Raised by no arm of exec. Safe. -/
  | notModelled (mnemonic : String)
  /-- A transaction whose operands are not those R56 gives its opcode: no form of the interface. Raised by step.
  Safe (log 10). -/
  | operandShape (opcode : BitVec 4)
  deriving DecidableEq, Repr

/-- The complete state of FRM (10_state.md R28), then the model's own fields for the ports (log 2, 5, 8). -/
structure State where
  /-- CTRL.CHK_EN (R15). -/
  chkEn : Bool
  /-- STATUS.RX_BADCHK, sticky (R16). -/
  rxBadchk : Bool
  /-- STATUS.TX_TOOBIG, sticky (R16). -/
  txToobig : Bool
  /-- RX_DROP_CNT (R17). -/
  rxDropCnt : Word32
  /-- RX_NOISE_CNT (R18). -/
  rxNoiseCnt : Word32
  /-- `tx_busy` (R19). -/
  txBusy : Bool
  /-- `tx_buf` (R19). -/
  txBuf : List Byte
  /-- `tx_idx`, 9 bits (R19). -/
  txIdx : BitVec 9
  /-- `rx_st` (R20). -/
  rxSt : RxSt
  /-- `rx_sop2` (R21). -/
  rxSop2 : Byte
  /-- `rx_mrsp` (R21). -/
  rxMrsp : Byte
  /-- `rx_seq` (R21). -/
  rxSeq : Byte
  /-- `rx_dlen` (R21). -/
  rxDlen : Byte
  /-- `rx_pay` (R21). -/
  rxPay : List Byte
  /-- `rx_sum` (R21). -/
  rxSum : Byte
  /-- `out_valid` (R22). -/
  outValid : Bool
  /-- `out_frame` (R22). -/
  outFrame : RxFrame
  /-- The operations the agents have offered and FRM has not taken, oldest first (R5, R55; log 2). -/
  pending : List Transaction
  /-- The bytes TXS has taken from `tx_out`, oldest first (R33; log 5). -/
  txOut : List Byte
  /-- The responses HOST has received, oldest first (R55; log 5). -/
  responses : List Response
  /-- How many times RESET has drawn free values (R82; log 8). -/
  draws : Nat
  deriving DecidableEq, Repr

/-- The state after power-on: the reset column of R28 (R96). The registers the spec leaves unspecified
(`rxSop2`, `rxMrsp`, `rxSeq`, `rxDlen`, `rxSum`, `outFrame`) are 0, DESIGN CHOICE (log 7); nothing is offered
(log 12), sent or answered (log 5), no free value is drawn (log 8). -/
def State.reset : State where
  chkEn := false
  rxBadchk := false
  txToobig := false
  rxDropCnt := 0#32
  rxNoiseCnt := 0#32
  txBusy := false
  txBuf := []
  txIdx := 0#9
  rxSt := .hunt
  rxSop2 := 0#8
  rxMrsp := 0#8
  rxSeq := 0#8
  rxDlen := 0#8
  rxPay := []
  rxSum := 0#8
  outValid := false
  outFrame := zeroFrame
  pending := []
  txOut := []
  responses := []
  draws := 0

/-- What a step answers. -/
abbrev Result := Host.Outcome State Fault Refusal

end Sys2Proof.Machine
end

