-- ==== Sys2Proof/Machine/Ops.lean ====
section
/-! DEFINITION. The operations the meanings share: checksums, the two wire formats, answering, raising an
error, holding. -/

namespace Sys2Proof.Machine

/-- `ck8(L) = ~u8(Σ L)`, the one's complement of the modulo-256 sum (40_tx_framer.md R63). -/
def ck8 (l : List Byte) : Byte :=
  ~~~ u8 (byteSum l)

/-- The outbound checksum; SOP1, SOP2 and DLEN are not summed, `len(data) + 1` is (R64). -/
def ckTx (did cid seq : Byte) (data : List Byte) : Byte :=
  ck8 ([did, cid, seq, u8 (data.length + 1)] ++ data)

/-- The inbound checksum: MRSP in place of DID and CID (41_rx_deframer.md R68). -/
def ckRx (mrsp seq : Byte) (data : List Byte) : Byte :=
  ck8 ([mrsp, seq, u8 (data.length + 1)] ++ data)

/-- `encode(r)`, the outbound frame of a request, in offset order (30_encoding.md R45, R47, R48). -/
def frameBytes (r : TxRequest) : List Byte :=
  [Config.sop1, r.flags, r.did, r.cid, r.seq, u8 r.data.length] ++ r.data ++
    [ckTx r.did r.cid r.seq r.data]

/-- Split a buffer laid out as an inbound frame (30_encoding.md R49) into its fields; `none` when the header
or the payload is incomplete. The first byte is not examined, bytes past the CHK position are ignored, and
a missing CHK byte is no failure (41_rx_deframer.md R76). -/
def parseFrame : List Byte → Option RxFrame
  | _ :: sop2 :: mrsp :: seq :: dlen :: rest =>
    if rest.length < dlen.toNat then none
    else
      let data := rest.take dlen.toNat
      match rest.drop dlen.toNat with
      | [] => some ⟨sop2, mrsp, seq, dlen, data, false, 0#8, false⟩
      | c :: _ => some ⟨sop2, mrsp, seq, dlen, data, true, c, c == ckRx mrsp seq data⟩
  | _ => none

/-- HOST receives a response (30_encoding.md R55; log 5). -/
def State.addResponse (s : State) (r : Response) : State :=
  { s with responses := s.responses ++ [r] }

/-- `emit(b)`: TXS takes byte `b` from `tx_out` in this step (00_scope.md R9; log 5). -/
def State.emit (s : State) (b : Byte) : State :=
  { s with txOut := s.txOut ++ [b] }

/-- The same state with other operations offered (log 2). -/
def State.setPending (s : State) (ts : List Transaction) : State :=
  { s with pending := ts }

/-- `respond(OK, v)` (00_scope.md R9). -/
def respond (v : Value) (s : State) : Result :=
  .next (s.addResponse (.ok v))

/-- Taking an error, the one operation every `raise` of an error goes through: the response names it and the
machine goes on; no mode, no saved state, no handler (00_scope.md R9, 60_exceptions.md R85, R91). `s` already
holds the state changes the raising rule lists. -/
def raiseError (e : Response) (s : State) : Result :=
  .next (s.addResponse e)

/-- `hold`: the step is not enabled, it is no error and changes nothing (00_scope.md R6, R9; log 4). -/
def hold (s : State) : Result :=
  .next s

/-- The ILLEGAL_OP fault: no state, no value (60_exceptions.md R84; log 6). -/
def illegalOp (info : IllegalInfo) : Result :=
  .fault (.illegalOp info)

/-- The payload is too long for a frame (R66). -/
def tooLarge (r : TxRequest) : Bool :=
  Config.maxPayload < r.data.length

/-- TX_SUBMIT holds while a frame is in flight; an oversized request never holds (R66, R89). -/
def txSubmitHeld (r : TxRequest) (s : State) : Bool :=
  !tooLarge r && s.txBusy

/-- TX_EMIT holds while there is nothing to send (R67). -/
def txEmitHeld (s : State) : Bool :=
  !s.txBusy

/-- RX_BYTE holds at a CHK byte while the holding register is full (R72). -/
def rxByteHeld (s : State) : Bool :=
  s.rxSt == .chk && s.outValid

/-- RX_POP holds until a frame is delivered (R75). -/
def rxPopHeld (s : State) : Bool :=
  !s.outValid

/-- The encoding of `rx_st`, 3 bits, 0 to 6; 7 is never reached and no operation reads the number
(10_state.md R20). -/
def rxStCode : RxSt → BitVec 3
  | .hunt => 0#3
  | .sop2 => 1#3
  | .mrsp => 2#3
  | .seq => 3#3
  | .dlen => 4#3
  | .data => 5#3
  | .chk => 6#3

/-- Whether an operation's enabling condition is false (00_scope.md R6). The other operations are always
enabled (R31, R93). -/
def held : Instr → State → Bool
  | .txSubmit r, s => txSubmitHeld r s
  | .txEmit, s => txEmitHeld s
  | .rxByte _, s => rxByteHeld s
  | .rxPop, s => rxPopHeld s
  | .decode _, _ => false
  | .extractInt _ _ _, _ => false
  | .extractStr _ _ _, _ => false
  | .csrRd _, _ => false
  | .csrWr _ _, _ => false
  | .reset, _ => false

/-- The 2-bit status code of a response (60_exceptions.md R83). A frame operand outside its domain has code 3, the code
of an "operation outside FRM's domain" (DEDUCED, log 16). -/
def Response.status : Response → BitVec 2
  | .ok _ => 0#2
  | .payloadTooLarge _ => 1#2
  | .malformedFrame _ => 2#2
  | .illegalOp _ => 3#2
  | .operandOutsideDomain => 3#2

/-- The response in which a fault is reported to HOST, when a run goes on past it (60_exceptions.md R85; log 6, log 16).
TX_EMIT has no response, so its fault is reported in none (30_encoding.md R55; log 11). -/
def faultResponse : Fault → Option Response
  | .illegalOp info => some (.illegalOp info)
  | .operandOutsideDomain => some .operandOutsideDomain
  | .txBufOutOfRange => none

end Sys2Proof.Machine
end

