-- ==== Sys2Proof/Machine/Flags.lean ====
section
/-! DEFINITION. The control and status registers as 32-bit words (10_state.md R14 to R18; 43_control.md R80,
R81). FRM has no condition codes (R13): its status bits are the fields of STATUS. -/

namespace Sys2Proof.Machine

/-- A one-bit field at bit `k` of a register. -/
def fieldBit (k : Nat) (b : Bool) : Word32 :=
  if b then 1#32 <<< k else 0#32

/-- STATUS bit 2, RX_INFRAME: a frame has begun and not ended (R16). -/
def rxInFrame (s : State) : Bool :=
  s.rxSt != .hunt

/-- CTRL as it reads: CHK_EN in bit 0, bits 31:1 read 0 (R15, R80). -/
def ctrlWord (s : State) : Word32 :=
  fieldBit 0 s.chkEn

/-- STATUS as it reads: three live bits, two sticky bits, bits 31:5 read 0 (R16, R80). -/
def statusWord (s : State) : Word32 :=
  fieldBit 0 s.outValid ||| fieldBit 1 s.txBusy ||| fieldBit 2 (rxInFrame s) |||
    fieldBit 3 s.rxBadchk ||| fieldBit 4 s.txToobig

/-- The value CSR_RD returns for an index; an unmapped index reads 0 (R80). -/
def readCsr (idx : BitVec 8) (s : State) : Word32 :=
  match idx.toNat with
  | 0x00 => ctrlWord s
  | 0x01 => statusWord s
  | 0x02 => s.rxDropCnt
  | 0x03 => s.rxNoiseCnt
  | _ => 0#32

/-- A write-1-to-clear bit after a write whose bit in its position is `w` (R16, R81). -/
def w1c (w sticky : Bool) : Bool :=
  sticky && !w

/-- The state CSR_WR leaves, before its response; the counters and unmapped indices ignore the write (R81). -/
def writeCsr (idx : BitVec 8) (val : Word32) (s : State) : State :=
  match idx.toNat with
  | 0x00 => { s with chkEn := val.getLsbD 0 }
  | 0x01 =>
    { s with
      rxBadchk := w1c (val.getLsbD 3) s.rxBadchk
      txToobig := w1c (val.getLsbD 4) s.txToobig }
  | _ => s

end Sys2Proof.Machine
end

