-- ==== Sys2Proof/Machine/ControlUnit.lean ====
section
/-! DEFINITION. The control unit: CSR_RD, CSR_WR and RESET (43_control.md). -/

namespace Sys2Proof.Machine

/-- CSR_RD (R80): no side effect, every index legal. -/
def execCsrRd (idx : BitVec 8) (s : State) : Result :=
  respond (.word (readCsr idx s)) s

/-- CSR_WR (R81): every index and value legal. -/
def execCsrWr (idx : BitVec 8) (val : Word32) (s : State) : Result :=
  respond .none (writeCsr idx val s)

/-- Every state element at its reset value (R28, R82); the six elements R82 leaves unspecified take free values
(log 8). What the agents have offered, sent and received stays. -/
def clearState (s : State) : State :=
  { s with
    chkEn := false
    rxBadchk := false
    txToobig := false
    rxDropCnt := 0#32
    rxNoiseCnt := 0#32
    txBusy := false
    txIdx := 0#9
    txBuf := []
    rxSt := .hunt
    rxPay := []
    outValid := false
    rxSop2 := Config.freeRxSop2 s.draws
    rxMrsp := Config.freeRxMrsp s.draws
    rxSeq := Config.freeRxSeq s.draws
    rxDlen := Config.freeRxDlen s.draws
    rxSum := Config.freeRxSum s.draws
    outFrame := Config.freeOutFrame s.draws
    draws := s.draws + 1 }

/-- RESET (R82): always enabled. -/
def execReset (s : State) : Result :=
  respond .none (clearState s)

end Sys2Proof.Machine
end

