-- ==== Sys2Proof/Machine/Operands.lean ====
section
/-! DEFINITION. What the field reader computes from its operands (42_field_extract.md R78, R79). -/

namespace Sys2Proof.Machine

/-- One position `k` of EXTRACT_INT's loop: OR the byte in if it is available, then shift left by 8 unless this
is the last position of the window (R78). Inside the operand's domain the default of `getD` is never taken. -/
def extractStep (f : RxFrame) (nbytes start acc k : Nat) : Nat :=
  if start + k < f.dlen.toNat then
    let acc' := acc ||| (f.data.getD (start + k) 0#8).toNat
    if k = nbytes - 1 then acc' else acc' <<< 8
  else acc

/-- EXTRACT_INT's loop over the positions left to do (R78). -/
def extractLoop (f : RxFrame) (nbytes start : Nat) : List Nat → Nat → Nat
  | [], acc => acc
  | k :: ks, acc => extractLoop f nbytes start ks (extractStep f nbytes start acc k)

/-- The integer EXTRACT_INT composes, before `zext_64`: 0 when `start` is past the payload (R78). -/
def extractValue (f : RxFrame) (nbytes start : Nat) : Nat :=
  if f.dlen.toNat ≤ start then 0
  else extractLoop f nbytes start (List.range nbytes) 0

/-- The bytes EXTRACT_STR copies: the window clamped to the payload (R79). -/
def extractBytes (f : RxFrame) (start count : Nat) : List Byte :=
  if f.dlen.toNat < start then []
  else (f.data.drop start).take (min count (f.dlen.toNat - start))

end Sys2Proof.Machine
end

