-- ==== Sys2Proof/Machine/FieldReader.lean ====
section
/-! DEFINITION. The field reader: EXTRACT_INT and EXTRACT_STR (42_field_extract.md). Both are pure. -/

namespace Sys2Proof.Machine

/-- EXTRACT_INT (R78): `nbytes` outside 1..8 is ILLEGAL_OP, checked first (R89; before a frame outside its domain, log 9); a frame outside its domain
(R57) faults (log 9). -/
def execExtractInt (f : RxFrame) (nbytes : BitVec 4) (start : BitVec 16) (s : State) : Result :=
  if nbytesLegal nbytes then
    if f.wf then respond (.int (BitVec.ofNat 64 (extractValue f nbytes.toNat start.toNat))) s
    else .fault .operandOutsideDomain
  else illegalOp (.nbytes nbytes)

/-- EXTRACT_STR (R79): no errors; a frame outside its domain (R57) faults (log 9). -/
def execExtractStr (f : RxFrame) (start count : BitVec 16) (s : State) : Result :=
  if f.wf then respond (.bytes (extractBytes f start.toNat count.toNat)) s
  else .fault .operandOutsideDomain

end Sys2Proof.Machine
end

