-- ==== Sys2Proof/Machine/RxDeframer.lean ====
section
/-! DEFINITION. The RX deframer: RX_BYTE, RX_POP and DECODE (41_rx_deframer.md). -/

namespace Sys2Proof.Machine

/-- State HUNT: SOP1 begins a frame, any other byte is noise and is counted modulo 2^32 (R69). -/
def acceptHunt (b : Byte) (s : State) : State :=
  if b = Config.sop1 then { s with rxSt := .sop2 }
  else { s with rxNoiseCnt := s.rxNoiseCnt + 1#32 }

/-- State SOP2 (R70). -/
def acceptSop2 (b : Byte) (s : State) : State :=
  { s with rxSop2 := b, rxSt := .mrsp }

/-- State MRSP: the running sum starts (R70). -/
def acceptMrsp (b : Byte) (s : State) : State :=
  { s with rxMrsp := b, rxSum := b, rxSt := .seq }

/-- State SEQ (R70). -/
def acceptSeq (b : Byte) (s : State) : State :=
  { s with rxSeq := b, rxSum := s.rxSum + b, rxSt := .dlen }

/-- State DLEN: the sum takes the `data_length + 1` term; an empty payload goes straight to CHK (R70). -/
def acceptDlen (b : Byte) (s : State) : State :=
  { s with
    rxDlen := b
    rxSum := s.rxSum + b + 1#8
    rxPay := []
    rxSt := if b = 0#8 then .chk else .data }

/-- State DATA: the last payload byte is the one that brings the count to `rx_dlen` (R70). -/
def acceptData (b : Byte) (s : State) : State :=
  { s with
    rxPay := s.rxPay ++ [b]
    rxSum := s.rxSum + b
    rxSt := if s.rxPay.length + 1 = s.rxDlen.toNat then .chk else s.rxSt }

/-- The received CHK byte matches the running sum (R71). -/
def chkMatches (b : Byte) (s : State) : Bool :=
  b == ~~~ s.rxSum

/-- The frame the CHK byte `b` completes, marker and CHK stripped from its payload (R71). -/
def completedFrame (b : Byte) (s : State) : RxFrame :=
  ⟨s.rxSop2, s.rxMrsp, s.rxSeq, s.rxDlen, s.rxPay, true, b, chkMatches b s⟩

/-- Verify: a matching frame, or any frame while CHK_EN = 0, goes to the holding register; otherwise it is
discarded and counted. A mismatch is recorded in RX_BADCHK whatever CHK_EN is (R71). -/
def verifyFrame (b : Byte) (s : State) : State :=
  let s1 := { s with rxBadchk := s.rxBadchk || !chkMatches b s }
  if chkMatches b s || !s.chkEn then { s1 with outFrame := completedFrame b s, outValid := true }
  else { s1 with rxDropCnt := s.rxDropCnt + 1#32 }

/-- State CHK: verify, then hunt again (R71, R73). -/
def acceptChk (b : Byte) (s : State) : State :=
  { verifyFrame b s with rxPay := [], rxSt := .hunt }

/-- The state after the deframer accepts one byte (R70, R71). -/
def acceptByte (b : Byte) (s : State) : State :=
  match s.rxSt with
  | .hunt => acceptHunt b s
  | .sop2 => acceptSop2 b s
  | .mrsp => acceptMrsp b s
  | .seq => acceptSeq b s
  | .dlen => acceptDlen b s
  | .data => acceptData b s
  | .chk => acceptChk b s

/-- RX_BYTE (R70): a port event, without a response to HOST. -/
def execRxByte (b : Byte) (s : State) : Result :=
  if rxByteHeld s then hold s
  else .next (acceptByte b s)

/-- RX_POP (R75). -/
def execRxPop (s : State) : Result :=
  if rxPopHeld s then hold s
  else respond (.frame s.outFrame) { s with outValid := false }

/-- DECODE (R76): it reads and writes no register. -/
def execDecode (buf : List Byte) (s : State) : Result :=
  match parseFrame buf with
  | none => raiseError (.malformedFrame buf.length) s
  | some f => respond (.frame f) s

end Sys2Proof.Machine
end

