-- ==== Sys2Proof/Machine/TxFramer.lean ====
section
/-! DEFINITION. The TX framer: TX_SUBMIT and TX_EMIT (40_tx_framer.md). -/

namespace Sys2Proof.Machine

/-- The frame of an accepted request goes in flight (R66). -/
def loadFrame (r : TxRequest) (s : State) : State :=
  { s with txBuf := frameBytes r, txIdx := 0#9, txBusy := true }

/-- TX_SUBMIT (R66): the size check comes before the busy hold. -/
def execTxSubmit (r : TxRequest) (s : State) : Result :=
  if tooLarge r then raiseError (.payloadTooLarge r.data.length) { s with txToobig := true }
  else if txSubmitHeld r s then hold s
  else respond .none (loadFrame r s)

/-- `tx_idx` and `tx_busy` after the byte at `tx_idx` is sent: the last byte (CHK) ends the frame (R67). -/
def advanceTx (s : State) : State :=
  if s.txIdx.toNat + 1 = s.txBuf.length then { s with txBusy := false, txIdx := 0#9 }
  else { s with txIdx := s.txIdx + 1#9 }

/-- TX_EMIT (R67). An index past the end of `tx_buf`, which R19's invariant excludes, faults (log 11). -/
def execTxEmit (s : State) : Result :=
  if txEmitHeld s then hold s
  else
    match s.txBuf[s.txIdx.toNat]? with
    | none => .fault .txBufOutOfRange
    | some b => .next ((advanceTx s).emit b)

end Sys2Proof.Machine
end

