-- ==== Sys2Proof/Machine/Dispatch.lean ====
section
/-! DEFINITION. One arm per operation of the opcode map (30_encoding.md R56). -/

namespace Sys2Proof.Machine

def exec (i : Instr) (s : State) : Host.Outcome State Fault Refusal :=
  match i with
  | .txSubmit r => Sys2Proof.Machine.execTxSubmit r s
  | .txEmit => Sys2Proof.Machine.execTxEmit s
  | .rxByte b => Sys2Proof.Machine.execRxByte b s
  | .rxPop => Sys2Proof.Machine.execRxPop s
  | .decode buf => Sys2Proof.Machine.execDecode buf s
  | .extractInt f nbytes start => Sys2Proof.Machine.execExtractInt f nbytes start s
  | .extractStr f start count => Sys2Proof.Machine.execExtractStr f start count s
  | .csrRd idx => Sys2Proof.Machine.execCsrRd idx s
  | .csrWr idx val => Sys2Proof.Machine.execCsrWr idx val s
  | .reset => Sys2Proof.Machine.execReset s

end Sys2Proof.Machine
end

