-- ==== Sys2Proof/Machine/Schedule.lean ====
section
/-! DEFINITION. Which offered operation takes the next step (00_scope.md R5, R6; log 2, log 3). -/

namespace Sys2Proof.Machine

/-- The agent a transaction belongs to: the agent column of R56; one that does not decode is HOST's, who gets
the status of every failing operation (60_exceptions.md R83; log 15). -/
def transactionAgent (t : Transaction) : Agent :=
  match decodeOp t with
  | .ok i => agentOf i
  | .error _ => .host

/-- The step of a transaction is not enabled (R6). A transaction that does not decode is never held (R89). -/
def transactionHeld (t : Transaction) (s : State) : Bool :=
  match decodeOp t with
  | .ok i => held i s
  | .error _ => false

/-- RESET is always enabled, so an operation of HOST that holds does not keep it back (43_control.md R82;
log 3). -/
def isReset (t : Transaction) : Bool :=
  t == encodeOp .reset

/-- The transaction must wait: it holds, or its agent has an earlier operation that does (an agent issues its
operations one at a time, 10_state.md R12). `waiting` are the agents with an earlier operation still waiting. -/
def mustWait (waiting : List Agent) (t : Transaction) (s : State) : Bool :=
  transactionHeld t s || (waiting.contains (transactionAgent t) && !isReset t)

/-- The oldest offered operation that need not wait, and the operations left behind, in order. -/
def pick (s : State) : List Agent → List Transaction → Option (Transaction × List Transaction)
  | _, [] => none
  | waiting, t :: ts =>
    if mustWait waiting t s then
      match pick s (transactionAgent t :: waiting) ts with
      | none => none
      | some (u, left) => some (u, t :: left)
    else some (t, ts)

/-- How a run goes on after a fault, for whoever drives FRM past it: the operation that faulted is gone,
the fault is reported in its response, and nothing else has changed (60_exceptions.md R84, R85; log 6; the response
of a frame operand outside its domain, which R83 does not list, is the model's choice, log 16). `step` itself ends in the
fault. -/
def afterFault (r : Fault) (s : State) : State :=
  let s' :=
    match pick s [] s.pending with
    | none => s
    | some (_, left) => s.setPending left
  match faultResponse r with
  | none => s'
  | some e => s'.addResponse e

end Sys2Proof.Machine
end

