-- ==== Sys2Proof/Machine/Step.lean ====
section
/-! DEFINITION. One step of FRM: the next enabled operation, run whole (00_scope.md R6, R9, R10). -/

namespace Sys2Proof.Machine

/-- One step. When every agent is held or has offered nothing there is no step, and the state stays as it is
(R6; log 4). A reserved opcode is ILLEGAL_OP (R59). -/
def step (s : State) : Host.Outcome State Fault Refusal :=
  match pick s [] s.pending with
  | none => .next s
  | some (t, left) =>
    match decodeOp t with
    | .ok i => exec i (s.setPending left)
    | .error (.reservedOpcode op) => illegalOp (.opcode op)
    | .error (.operandShape op) => .refused (.operandShape op)

/-- `s` with the operation of an opcode-table word as the one operation offered, so that the next step runs
exactly it (log 12). -/
def State.withFetchWord (s : State) (nbits w : Nat) : State :=
  s.setPending [tableTransaction nbits w]

end Sys2Proof.Machine
end

