-- ==== Sys2Proof/Safety.lean ====
section
/-! DEFINITION. The words claims are stated in: the invariants of FRM, what two states share, and runs of
operations. -/

namespace Sys2Proof.Safety

open Sys2Proof.Machine

/-! ## Invariants -/

/-- The invariant of the TX framer (10_state.md R19). -/
def TxInv (s : State) : Prop :=
  (s.txBusy = true → 7 ≤ s.txBuf.length ∧ s.txBuf.length ≤ 262 ∧ s.txIdx.toNat < s.txBuf.length) ∧
    (s.txBusy = false → s.txIdx = 0#9)

/-- What is in flight is the whole frame of one request (R66, R45). -/
def InFlightInv (s : State) : Prop :=
  s.txBusy = true → ∃ r : TxRequest, r.data.length ≤ 255 ∧ s.txBuf = frameBytes r

/-- The running sum once DLEN is in: `u8(rx_mrsp + rx_seq + rx_dlen + 1 + Σ rx_pay)` (41_rx_deframer.md R71). -/
def wholeSum (s : State) : Byte :=
  u8 (s.rxMrsp.toNat + s.rxSeq.toNat + s.rxDlen.toNat + 1 + byteSum s.rxPay)

/-- The invariant of the RX deframer: how many payload bytes are in, and what the running sum holds, in each
state (R21, R70, R71). -/
def RxInv (s : State) : Prop :=
  (s.rxSt ≠ .data → s.rxSt ≠ .chk → s.rxPay = []) ∧
  (s.rxSt = .seq → s.rxSum = s.rxMrsp) ∧
  (s.rxSt = .dlen → s.rxSum = s.rxMrsp + s.rxSeq) ∧
  (s.rxSt = .data → s.rxPay.length < s.rxDlen.toNat ∧ s.rxSum = wholeSum s) ∧
  (s.rxSt = .chk → s.rxPay.length = s.rxDlen.toNat ∧ s.rxSum = wholeSum s)

/-- A delivered frame has as many payload bytes as its DLEN says, its CHK was seen, and `chk_ok` says whether it
equals the inbound checksum (10_state.md R25). -/
def OutInv (s : State) : Prop :=
  s.outValid = true →
    s.outFrame.data.length = s.outFrame.dlen.toNat ∧ s.outFrame.chkPresent = true ∧
      (s.outFrame.chkOk = true ↔
        s.outFrame.chk = ckRx s.outFrame.mrsp s.outFrame.seq s.outFrame.data)

/-- The invariant of FRM. -/
def Inv (s : State) : Prop :=
  TxInv s ∧ InFlightInv s ∧ RxInv s ∧ OutInv s

/-! ## What two states share -/

/-- The same TX state (60_exceptions.md R94). -/
def SameTx (s t : State) : Prop :=
  t.txBusy = s.txBusy ∧ t.txBuf = s.txBuf ∧ t.txIdx = s.txIdx

/-- The same deframer registers (R94). -/
def SameRx (s t : State) : Prop :=
  t.rxSt = s.rxSt ∧ t.rxSop2 = s.rxSop2 ∧ t.rxMrsp = s.rxMrsp ∧ t.rxSeq = s.rxSeq ∧
    t.rxDlen = s.rxDlen ∧ t.rxPay = s.rxPay ∧ t.rxSum = s.rxSum

/-- The same holding register (R94). -/
def SameOut (s t : State) : Prop :=
  t.outValid = s.outValid ∧ t.outFrame = s.outFrame

/-- The same control and status registers, less the live bits, which are views of the rest (10_state.md R14). -/
def SameCsr (s t : State) : Prop :=
  t.chkEn = s.chkEn ∧ t.rxBadchk = s.rxBadchk ∧ t.txToobig = s.txToobig ∧
    t.rxDropCnt = s.rxDropCnt ∧ t.rxNoiseCnt = s.rxNoiseCnt

/-- The same state of FRM itself, every element of R28: only the ports may differ. -/
def SameFrm (s t : State) : Prop :=
  SameTx s t ∧ SameRx s t ∧ SameOut s t ∧ SameCsr s t

/-- The states agree on every register except those that hold no value yet: the registers whose reset value R23
calls unspecified may differ until a rule has written them. -/
def AgreeWhereWritten (s t : State) : Prop :=
  SameCsr s t ∧
  t.txBusy = s.txBusy ∧ t.txIdx = s.txIdx ∧ (s.txBusy = true → t.txBuf = s.txBuf) ∧
  t.rxSt = s.rxSt ∧ t.rxPay = s.rxPay ∧
  (s.rxSt ≠ .hunt → s.rxSt ≠ .sop2 → t.rxSop2 = s.rxSop2) ∧
  (s.rxSt = .seq ∨ s.rxSt = .dlen ∨ s.rxSt = .data ∨ s.rxSt = .chk →
    t.rxMrsp = s.rxMrsp ∧ t.rxSum = s.rxSum) ∧
  (s.rxSt = .dlen ∨ s.rxSt = .data ∨ s.rxSt = .chk → t.rxSeq = s.rxSeq) ∧
  (s.rxSt = .data ∨ s.rxSt = .chk → t.rxDlen = s.rxDlen) ∧
  t.outValid = s.outValid ∧ (s.outValid = true → t.outFrame = s.outFrame) ∧
  t.pending = s.pending ∧ t.txOut = s.txOut ∧ t.responses = s.responses

/-- Two steps answer alike: the same fault or refusal, or next states that agree where written. -/
def AnswersAgree : Result → Result → Prop
  | .next s, .next t => AgreeWhereWritten s t
  | .fault a, .fault b => a = b
  | .refused a, .refused b => a = b
  | _, _ => False

/-! ## Runs -/

/-- Run operations in order, each of them enabled when its turn comes (00_scope.md R6); `none` if one is held
or does not answer a next state. -/
def runEnabled : List Instr → State → Option State
  | [], s => some s
  | i :: is, s =>
    if held i s then none
    else
      match exec i s with
      | .next t => runEnabled is t
      | .fault _ => none
      | .refused _ => none

/-- The bytes of the frame in flight that are still to be sent. -/
def toSend (s : State) : List Byte :=
  if s.txBusy then s.txBuf.drop s.txIdx.toNat else []

/-- The frames of the requests a run accepts, concatenated: in a run of enabled operations a TX_SUBMIT is
accepted unless its payload is too long (R66). -/
def acceptedBytes : List Instr → List Byte
  | [] => []
  | .txSubmit r :: is => (if r.data.length ≤ 255 then frameBytes r else []) ++ acceptedBytes is
  | _ :: is => acceptedBytes is

/-- The frame waiting in the holding register, if any. -/
def waitingFrame (s : State) : List RxFrame :=
  if s.outValid then [s.outFrame] else []

/-- The frame an operation delivers to the holding register, going from `s` to `t`. -/
def deliveredBy (i : Instr) (s t : State) : List RxFrame :=
  match i with
  | .rxByte _ => if s.outValid then [] else waitingFrame t
  | _ => []

/-- The frame an operation takes from the holding register of `s`. -/
def poppedBy (i : Instr) (s : State) : List RxFrame :=
  match i with
  | .rxPop => waitingFrame s
  | _ => []

/-- The frames delivered along a run, in order. -/
def deliveredFrames : List Instr → State → List RxFrame
  | [], _ => []
  | i :: is, s =>
    match exec i s with
    | .next t => deliveredBy i s t ++ deliveredFrames is t
    | .fault _ => []
    | .refused _ => []

/-- The frames popped along a run, in order. -/
def poppedFrames : List Instr → State → List RxFrame
  | [], _ => []
  | i :: is, s =>
    match exec i s with
    | .next t => poppedBy i s ++ poppedFrames is t
    | .fault _ => []
    | .refused _ => []

/-- The bytes of an inbound frame up to its CHK byte (30_encoding.md R49). -/
def inboundBody (sop2 mrsp seq : Byte) (data : List Byte) : List Byte :=
  [0xFF#8, sop2, mrsp, seq, u8 data.length] ++ data

/-- RX_BYTE for each of the bytes, in arrival order. -/
def deliverBytes (bs : List Byte) : List Instr :=
  bs.map Instr.rxByte

/-- The big-endian value of a list of bytes (42_field_extract.md R78). -/
def bigEndian (bs : List Byte) : Nat :=
  bs.foldl (fun acc b => acc * 256 + b.toNat) 0

end Sys2Proof.Safety
end

