-- ==== Sys2Proof/Certificates/Slice0/Obligations.lean ====
section
/-! DEFINITION. The statements for the provers. A docstring says which rule of spec/ a statement formalises, and
where it rests on a choice of the model (log n) or on an inference the spec marks as its own. In every statement
`responses` (what HOST has been answered) and `txOut` (what TXS has taken) are the model's records of the ports,
log 5; `pending` is the model's record of what is offered, log 2. -/

open Sys2Proof Sys2Proof.Machine Sys2Proof.Safety

/-! ## Operations, their encoding and the step -/

/-- Decoding inverts encoding, and no two transactions are the same operation (R55, R56; the form of a transaction
is the model's, log 1). -/
def Obligations.DecoderInvertsEncoder : Prop :=
  (∀ i : Instr, decodeOp (encodeOp i) = .ok i) ∧
    ∀ (t : Transaction) (i : Instr), decodeOp t = .ok i → encodeOp i = t

/-- Opcodes 0x0 and 0xB..0xF fault, whatever their operands (R59, R89). A fault carries no state: nothing changes.
(Cited in part with R89, so derived; the place of the fault in a run is the model's, log 2 and log 6.) -/
def Obligations.ReservedOpcodeFaults : Prop :=
  ∀ (op : BitVec 4) (operands : List Operand) (later : List Transaction) (s : State),
    op.toNat = 0 ∨ 0xB ≤ op.toNat →
    s.pending = ⟨op, operands⟩ :: later →
    decodeOp ⟨op, operands⟩ = .error (.reservedOpcode op) ∧
      step s = .fault (.illegalOp (.opcode op))

/-- Operations written out from the programs of 95_test_vectors.md section 3 decode to what they stand for. -/
def Obligations.WrittenOperationsDecode : Prop :=
  decodeOp ⟨0x9#4, [.u8 0x00#8, .u32 0x00000001#32]⟩ = .ok (.csrWr 0x00#8 0x00000001#32) ∧
  decodeOp ⟨0x1#4, [.u8 0x01#8, .u8 0x00#8, .u8 0x01#8, .u8 0x52#8, .bytes [0xFF#8]]⟩ =
    .ok (.txSubmit ⟨0x01#8, 0x00#8, 0x01#8, 0x52#8, [0xFF#8]⟩) ∧
  decodeOp ⟨0x2#4, []⟩ = .ok .txEmit ∧
  decodeOp ⟨0x3#4, [.u8 0x82#8]⟩ = .ok (.rxByte 0x82#8) ∧
  decodeOp ⟨0x4#4, []⟩ = .ok .rxPop ∧
  decodeOp ⟨0x8#4, [.u8 0x01#8]⟩ = .ok (.csrRd 0x01#8) ∧
  decodeOp ⟨0xA#4, []⟩ = .ok .reset

/-- A step runs the decoded operation: the oldest offered operation, if it is enabled, leaves `pending` and is
executed whole (R6; `pending` is the model's, log 2). -/
def Obligations.StepRunsTheDecodedOperation : Prop :=
  ∀ (s : State) (t : Transaction) (later : List Transaction) (i : Instr),
    s.pending = t :: later → decodeOp t = .ok i → held i s = false →
      step s = exec i (s.setPending later)

/-- Operations that are held stay where they are, and the step goes to the first enabled operation behind them
that is RESET or belongs to an agent with nothing older waiting (R6, R12, R82; log 2, log 3). -/
def Obligations.StepPassesOverHeldOperations : Prop :=
  ∀ (s : State) (before later : List Transaction) (t : Transaction) (i : Instr),
    s.pending = before ++ t :: later →
    (∀ u ∈ before, ∃ j, decodeOp u = .ok j ∧ held j s = true ∧
      (agentOf j ≠ agentOf i ∨ i = .reset)) →
    decodeOp t = .ok i → held i s = false →
      step s = exec i (s.setPending (before ++ later))

/-- With every offered operation held there is no step: the state stays as it is. An agent issues one operation at
a time, so in a list of any length an operation other than RESET behind a held one of its own agent waits too, and so
does a transaction that does not decode behind a held operation of HOST (R6, R12; log 2, log 4, log 15). -/
def Obligations.StepWithNothingEnabledChangesNothing : Prop :=
  (∀ s : State, (∀ t ∈ s.pending, ∃ i, decodeOp t = .ok i ∧ held i s = true) → step s = .next s) ∧
  ∀ s : State,
    (∀ before t later, s.pending = before ++ t :: later →
      (∃ i, decodeOp t = .ok i ∧ held i s = true) ∨
      (∃ u ∈ before, ∃ j, decodeOp u = .ok j ∧ held j s = true ∧
        ((∃ i, decodeOp t = .ok i ∧ i ≠ .reset ∧ agentOf i = agentOf j) ∨
          ((∃ e, decodeOp t = .error e) ∧ agentOf j = .host)))) →
    step s = .next s

/-- Every order of enabled operations is a run of the machine: offered in that order, they are taken in that order
(R5, R6: the agents' steps may be scheduled at any point; `pending` is the model's, log 2). -/
def Obligations.EveryEnabledOrderRuns : Prop :=
  ∀ (is : List Instr) (s t : State) (later : List Transaction),
    runEnabled is s = some t →
      Host.Core.run Sys2Proof.core is.length (s.setPending (is.map encodeOp ++ later)) =
        .next (t.setPending later)

/-- A held operation changes nothing, and no other operation leaves the whole state as it was: a hold and a done
step are kept apart (R6, R10; it rests on the logs of responses and bytes, log 4 and log 5). -/
def Obligations.HeldExactlyWhenNothingChanges : Prop :=
  ∀ (i : Instr) (s : State), held i s = true ↔ exec i s = .next s

/-- The enabling conditions: only four operations ever hold, each exactly where its rule says `hold` (R66, R67,
R72, R75; `held` is the model's name for it). -/
def Obligations.OperationsHoldExactlyWhere : Prop :=
  ∀ (i : Instr) (s : State), held i s = true ↔
    ((∃ r, i = .txSubmit r ∧ r.data.length ≤ 255 ∧ s.txBusy = true) ∨
     (i = .txEmit ∧ s.txBusy = false) ∨
     ((∃ b, i = .rxByte b) ∧ s.rxSt = .chk ∧ s.outValid = true) ∨
     (i = .rxPop ∧ s.outValid = false))

/-- Every enabled HOST operation that does not fault gets exactly one response; the port events TX_EMIT and RX_BYTE
get none (R55; `responses` is the model's, log 5). -/
def Obligations.OneResponseForEachHostOperation : Prop :=
  ∀ (i : Instr) (s t : State), exec i s = .next t →
    (agentOf i = .host → held i s = false → ∃ r, t.responses = s.responses ++ [r]) ∧
    (agentOf i ≠ .host → t.responses = s.responses)

/-- Every operation with operands in their domains answers a next state in every state that meets R19's invariant
(R10, R57). -/
def Obligations.WellFormedOperationsNeverStop : Prop :=
  ∀ (i : Instr) (s : State), i.wellFormed = true → TxInv s → ∃ t, exec i s = .next t

/-! ## TX framer -/

/-- The checksum is 0xFF minus the sum modulo 256, and the sum may be formed at any width of at least 8 bits
(R63, whose second half the spec marks as derived from R8). -/
def Obligations.ChecksumIsTheSameAtAnyWidth : Prop :=
  ∀ l : List Byte, (ck8 l).toNat = 0xFF - byteSum l % 256 ∧
    ∀ w : Nat, 8 ≤ w →
      ck8 l = ~~~ ((l.foldl (fun acc b => acc + b.setWidth w) (0#w)).setWidth 8)

/-- The outbound checksum sums DID, CID, SEQ, `data_length + 1` and the payload, modulo 256, also where
`data_length + 1` is 256 (R64). -/
def Obligations.OutboundChecksumFormula : Prop :=
  (∀ (did cid seq : Byte) (data : List Byte),
    ckTx did cid seq data = ck8 ([did, cid, seq, u8 (data.length + 1)] ++ data) ∧
    (ckTx did cid seq data).toNat =
      0xFF - (did.toNat + cid.toNat + seq.toNat + (data.length + 1) + byteSum data) % 256) ∧
  ckTx 0x00#8 0x01#8 0x52#8 [0xFF#8] = 0xAB#8

/-- The outbound frame, byte by byte, and its length (R45, R46). -/
def Obligations.OutboundFrameLayout : Prop :=
  ∀ r : TxRequest, r.data.length ≤ 255 →
    let f := frameBytes r
    let n := r.data.length
    f.length = 7 + n ∧ 7 ≤ f.length ∧ f.length ≤ 262 ∧
    f[0]? = some 0xFF#8 ∧ f[1]? = some r.flags ∧ f[2]? = some r.did ∧ f[3]? = some r.cid ∧
    f[4]? = some r.seq ∧ (∃ d : Byte, f[5]? = some d ∧ d.toNat = n) ∧
    (∀ k < n, f[6 + k]? = r.data[k]?) ∧ f[6 + n]? = some (ckTx r.did r.cid r.seq r.data)

/-- The bytes DID to CHK of every outbound frame sum to 0xFE modulo 256, and recomputing the checksum from the
fields read back from the wire gives the CHK byte (R65, which the spec marks as derived). -/
def Obligations.OutboundChecksumRoundTrip : Prop :=
  ∀ r : TxRequest, r.data.length ≤ 255 →
    let f := frameBytes r
    byteSum (f.drop 2) % 256 = 0xFE ∧
    ∀ did cid seq dlen : Byte,
      f[2]? = some did → f[3]? = some cid → f[4]? = some seq → f[5]? = some dlen →
        f[6 + dlen.toNat]? = some (ckTx did cid seq ((f.drop 6).take dlen.toNat))

/-- TX_SUBMIT (R66): an oversized request is rejected at once, busy or not; any other request goes in flight when
the framer is idle and holds while it is busy. Each clause gives the whole next state: all else is unchanged. -/
def Obligations.TxSubmitOutcomes : Prop :=
  ∀ (r : TxRequest) (s : State),
    (255 < r.data.length →
      exec (.txSubmit r) s =
        .next { s with
          txToobig := true
          responses := s.responses ++ [.payloadTooLarge r.data.length] }) ∧
    (r.data.length ≤ 255 → s.txBusy = true → exec (.txSubmit r) s = .next s) ∧
    (r.data.length ≤ 255 → s.txBusy = false →
      exec (.txSubmit r) s =
        .next { s with
          txBuf := [0xFF#8, r.flags, r.did, r.cid, r.seq, u8 r.data.length] ++ r.data ++
            [ckTx r.did r.cid r.seq r.data]
          txIdx := 0#9
          txBusy := true
          responses := s.responses ++ [.ok .none] })

/-- TX_EMIT (R67): holds while idle; sends the byte at `tx_idx` and moves on, or goes idle after the last byte. All
else is unchanged. `tx_idx` lies in `tx_buf`, as R19's invariant says. -/
def Obligations.TxEmitOutcomes : Prop :=
  ∀ (s : State),
    (s.txBusy = false → exec .txEmit s = .next s) ∧
    (∀ b, s.txBusy = true → s.txBuf[s.txIdx.toNat]? = some b →
      (s.txIdx.toNat + 1 = s.txBuf.length →
        exec .txEmit s =
          .next { s with txOut := s.txOut ++ [b], txBusy := false, txIdx := 0#9 }) ∧
      (s.txIdx.toNat + 1 ≠ s.txBuf.length →
        exec .txEmit s = .next { s with txOut := s.txOut ++ [b], txIdx := s.txIdx + 1#9 }))

/-- An accepted frame of `7 + n` bytes takes exactly `7 + n` TX_EMIT steps, in index order, and leaves the framer idle
(R67, R106; R106 is marked derived by the spec). -/
def Obligations.AcceptedFrameLeavesWhole : Prop :=
  ∀ (r : TxRequest) (s : State), r.data.length ≤ 255 → s.txBusy = false →
    (∀ k ≤ 7 + r.data.length,
      ∃ t, runEnabled (.txSubmit r :: List.replicate k .txEmit) s = some t ∧
        t.txOut = s.txOut ++ (frameBytes r).take k ∧
        (t.txBusy = true ↔ k < 7 + r.data.length)) ∧
    runEnabled (.txSubmit r :: List.replicate (8 + r.data.length) .txEmit) s = none

/-- Outbound frames leave in the order TX_SUBMIT accepted them, each whole before the next begins: along any run
without RESET, what has left and what is in flight are the accepted frames, concatenated (R38, which the spec
marks as derived). -/
def Obligations.OutboundStreamIsConcatenation : Prop :=
  ∀ (is : List Instr) (s t : State), TxInv s → Instr.reset ∉ is → runEnabled is s = some t →
    t.txOut ++ toSend t = s.txOut ++ toSend s ++ acceptedBytes is

/-! ## RX deframer -/

/-- While hunting, 0xFF begins a frame and any other byte is noise, counted modulo 2^32; inside a frame no byte is
noise (R69). All else is unchanged. -/
def Obligations.HuntFindsMarkerOrCountsNoise : Prop :=
  ∀ (b : Byte) (s : State),
    (s.rxSt = .hunt → b = 0xFF#8 → exec (.rxByte b) s = .next { s with rxSt := .sop2 }) ∧
    (s.rxSt = .hunt → b ≠ 0xFF#8 →
      exec (.rxByte b) s = .next { s with rxNoiseCnt := s.rxNoiseCnt + 1#32 }) ∧
    (s.rxSt ≠ .hunt → ∀ t, exec (.rxByte b) s = .next t →
      t.rxNoiseCnt = s.rxNoiseCnt ∧ t.rxSt ≠ .sop2)

/-- Inside a frame a byte is the field its position names, up to the CHK byte (R70; HUNT is
HuntFindsMarkerOrCountsNoise, CHK is ChkByteVerifiesAndStrips, the hold is RxByteHoldsOnlyAtAFullChk). Each clause
gives the whole next state: all else is unchanged. -/
def Obligations.ByteIsTheFieldItsPositionNames : Prop :=
  ∀ (b : Byte) (s : State),
    (s.rxSt = .sop2 → exec (.rxByte b) s = .next { s with rxSop2 := b, rxSt := .mrsp }) ∧
    (s.rxSt = .mrsp →
      exec (.rxByte b) s = .next { s with rxMrsp := b, rxSum := b, rxSt := .seq }) ∧
    (s.rxSt = .seq →
      exec (.rxByte b) s =
        .next { s with rxSeq := b, rxSum := u8 (s.rxSum.toNat + b.toNat), rxSt := .dlen }) ∧
    (s.rxSt = .dlen → b = 0x00#8 →
      exec (.rxByte b) s =
        .next { s with
          rxDlen := b, rxSum := u8 (s.rxSum.toNat + b.toNat + 1), rxPay := [], rxSt := .chk }) ∧
    (s.rxSt = .dlen → b ≠ 0x00#8 →
      exec (.rxByte b) s =
        .next { s with
          rxDlen := b, rxSum := u8 (s.rxSum.toNat + b.toNat + 1), rxPay := [], rxSt := .data }) ∧
    (s.rxSt = .data → s.rxPay.length + 1 = s.rxDlen.toNat →
      exec (.rxByte b) s =
        .next { s with
          rxPay := s.rxPay ++ [b], rxSum := u8 (s.rxSum.toNat + b.toNat), rxSt := .chk }) ∧
    (s.rxSt = .data → s.rxPay.length + 1 ≠ s.rxDlen.toNat →
      exec (.rxByte b) s =
        .next { s with rxPay := s.rxPay ++ [b], rxSum := u8 (s.rxSum.toNat + b.toNat) })

/-- The CHK byte (R71): a matching frame, or any frame while CHK_EN = 0, is delivered without marker and CHK; a
mismatched one is dropped and counted while CHK_EN = 1; RX_BADCHK is set on every mismatch. All else is
unchanged. -/
def Obligations.ChkByteVerifiesAndStrips : Prop :=
  ∀ (b : Byte) (s : State), s.rxSt = .chk → s.outValid = false →
    (b = ~~~ s.rxSum →
      exec (.rxByte b) s =
        .next { s with
          outFrame := ⟨s.rxSop2, s.rxMrsp, s.rxSeq, s.rxDlen, s.rxPay, true, b, true⟩
          outValid := true, rxPay := [], rxSt := .hunt }) ∧
    (b ≠ ~~~ s.rxSum → s.chkEn = false →
      exec (.rxByte b) s =
        .next { s with
          rxBadchk := true
          outFrame := ⟨s.rxSop2, s.rxMrsp, s.rxSeq, s.rxDlen, s.rxPay, true, b, false⟩
          outValid := true, rxPay := [], rxSt := .hunt }) ∧
    (b ≠ ~~~ s.rxSum → s.chkEn = true →
      exec (.rxByte b) s =
        .next { s with
          rxBadchk := true, rxDropCnt := s.rxDropCnt + 1#32, rxPay := [], rxSt := .hunt })

/-- RX_BYTE holds exactly when it is at a CHK byte and the holding register is full, whatever the byte and CHK_EN
are; held, it changes nothing, and otherwise it answers a next state that differs; so a waiting frame is never
overwritten (R72). -/
def Obligations.RxByteHoldsOnlyAtAFullChk : Prop :=
  ∀ (b : Byte) (s : State),
    (s.rxSt = .chk ∧ s.outValid = true → exec (.rxByte b) s = .next s) ∧
    (¬ (s.rxSt = .chk ∧ s.outValid = true) → ∃ t, exec (.rxByte b) s = .next t ∧ t ≠ s) ∧
    (∀ t, s.outValid = true → exec (.rxByte b) s = .next t →
      t.outValid = true ∧ t.outFrame = s.outFrame)

/-- The inbound checksum sums MRSP, SEQ, `data_length + 1` and the payload, modulo 256 (R68; the spec marks the formula
as its own reading, 92_eei_decisions.md D5). -/
def Obligations.InboundChecksumFormula : Prop :=
  (∀ (mrsp seq : Byte) (data : List Byte),
    (ckRx mrsp seq data).toNat =
      0xFF - (mrsp.toNat + seq.toNat + (data.length + 1) + byteSum data) % 256) ∧
  ckRx 0x00#8 0x01#8 [0x27#8, 0x10#8] = 0xC4#8

/-- At the CHK byte the complement of the running sum is the inbound checksum of the received fields (R71, R68: the
spec marks the first as derived and the formula as its own reading). -/
def Obligations.RunningSumIsTheInboundChecksum : Prop :=
  ∀ s : State, RxInv s → s.rxSt = .chk → ~~~ s.rxSum = ckRx s.rxMrsp s.rxSeq s.rxPay

/-- A frame of `6 + n` bytes, begun in HUNT with the holding register empty, is consumed in exactly `6 + n` RX_BYTE
steps: the deframer is inside the frame after each shorter prefix, with nothing delivered, and in HUNT after the
CHK byte, good or bad. The fields delivered are the bytes sent (R73, R106, R49; it rests on R68, the spec's own
reading). -/
def Obligations.InboundFrameIsConsumedWhole : Prop :=
  ∀ (sop2 mrsp seq c : Byte) (data : List Byte) (s : State),
    data.length ≤ 255 → s.rxSt = .hunt → s.outValid = false →
    let bs := inboundBody sop2 mrsp seq data ++ [c]
    let good : Bool := c == ckRx mrsp seq data
    bs.length = 6 + data.length ∧
    (∀ k, 0 < k → k < bs.length →
      ∃ t, runEnabled (deliverBytes (bs.take k)) s = some t ∧ t.rxSt ≠ .hunt ∧ t.outValid = false) ∧
    ∃ t, runEnabled (deliverBytes bs) s = some t ∧ t.rxSt = .hunt ∧ t.rxPay = [] ∧
      t.rxNoiseCnt = s.rxNoiseCnt ∧ t.rxBadchk = (s.rxBadchk || !good) ∧
      (good = true ∨ s.chkEn = false →
        t.outValid = true ∧ t.rxDropCnt = s.rxDropCnt ∧
          t.outFrame = ⟨sop2, mrsp, seq, u8 data.length, data, true, c, good⟩) ∧
      (good = false → s.chkEn = true →
        t.outValid = false ∧ t.rxDropCnt = s.rxDropCnt + 1#32)

/-- DECODE and the deframer agree: feeding a buffer that holds a whole frame by RX_BYTE leaves in the holding
register the very frame DECODE answers for that buffer (R77, which the spec marks as derived). -/
def Obligations.DeframerAgreesWithDecode : Prop :=
  ∀ (buf : List Byte) (n : Byte) (s : State),
    buf[0]? = some 0xFF#8 → buf[4]? = some n → 6 + n.toNat ≤ buf.length →
    s.rxSt = .hunt → s.outValid = false →
    (s.chkEn = false ∨
      buf[5 + n.toNat]? =
        some (ckRx (buf.getD 2 0#8) (buf.getD 3 0#8) ((buf.drop 5).take n.toNat))) →
    ∃ t, runEnabled (deliverBytes (buf.take (6 + n.toNat))) s = some t ∧ t.outValid = true ∧
      exec (.decode buf) s =
        .next { s with responses := s.responses ++ [.ok (.frame t.outFrame)] }

/-- A delivered frame stays in the holding register, unchanged, until RX_POP or RESET (R39, R72; R39 is marked
derived by the spec). -/
def Obligations.DeliveredFrameIsNeverOverwritten : Prop :=
  ∀ (i : Instr) (s t : State), s.outValid = true → i ≠ .rxPop → i ≠ .reset →
    exec i s = .next t → t.outValid = true ∧ t.outFrame = s.outFrame

/-- Frames are popped in the order in which they were delivered, none lost and none twice, along any run without
RESET (R39, which the spec marks as derived). -/
def Obligations.FramesArePoppedInArrivalOrder : Prop :=
  ∀ (is : List Instr) (s t : State), Instr.reset ∉ is → runEnabled is s = some t →
    waitingFrame s ++ deliveredFrames is s = poppedFrames is s ++ waitingFrame t

/-- RX_POP (R75): holds while nothing is delivered; otherwise answers the frame and empties the holding register.
All else is unchanged. -/
def Obligations.RxPopOutcomes : Prop :=
  ∀ s : State,
    (s.outValid = false → exec .rxPop s = .next s) ∧
    (s.outValid = true →
      exec .rxPop s =
        .next { s with
          outValid := false
          responses := s.responses ++ [.ok (.frame s.outFrame)] })

/-- DECODE (R76), its result by buffer index: MALFORMED_FRAME with an incomplete header or payload; otherwise the
frame, with CHK reported when it is there. Byte 0 is not checked, bytes past CHK are ignored, and only the
response is written. -/
def Obligations.DecodeOutcomes : Prop :=
  ∀ (buf : List Byte) (s : State),
    (buf.length < 5 →
      exec (.decode buf) s =
        .next { s with responses := s.responses ++ [.malformedFrame buf.length] }) ∧
    ∀ sop2 mrsp seq n : Byte,
      buf[1]? = some sop2 → buf[2]? = some mrsp → buf[3]? = some seq → buf[4]? = some n →
      let data := (buf.drop 5).take n.toNat
      (buf.length < 5 + n.toNat →
        exec (.decode buf) s =
          .next { s with responses := s.responses ++ [.malformedFrame buf.length] }) ∧
      (buf.length = 5 + n.toNat →
        exec (.decode buf) s =
          .next { s with
            responses := s.responses ++
              [.ok (.frame ⟨sop2, mrsp, seq, n, data, false, 0x00#8, false⟩)] }) ∧
      (∀ c, buf[5 + n.toNat]? = some c →
        exec (.decode buf) s =
          .next { s with
            responses := s.responses ++
              [.ok (.frame ⟨sop2, mrsp, seq, n, data, true, c, c == ckRx mrsp seq data⟩)] })

/-- With CHK_EN = 1 no mismatched frame enters the holding register: if the frame waiting there is a good one, then
after any operation the frame waiting is still a good one (R71, R98). -/
def Obligations.ValidationDeliversOnlyMatchingFrames : Prop :=
  ∀ (i : Instr) (s t : State), s.chkEn = true →
    (s.outValid = true → s.outFrame.chkOk = true) → exec i s = .next t →
      (t.outValid = true → t.outFrame.chkOk = true)

/-- CTRL.CHK_EN is read at the CHK byte alone: a CSR_WR before the CHK byte of a frame in progress decides what
becomes of that frame, whether it comes right before the CHK byte or earlier in the frame, with any enabled operations
in between that neither write CTRL again nor reset FRM; a matching frame is delivered either way (R103, R41). -/
def Obligations.ChkEnGovernsTheFrameInProgress : Prop :=
  (∀ (val : Word32) (b : Byte) (s : State), s.rxSt = .chk → s.outValid = false → b ≠ ~~~ s.rxSum →
    ∃ t, runEnabled [.csrWr 0x00#8 val, .rxByte b] s = some t ∧
      (val.getLsbD 0 = true → t.outValid = false ∧ t.rxDropCnt = s.rxDropCnt + 1#32) ∧
      (val.getLsbD 0 = false →
        t.outValid = true ∧ t.outFrame.chkOk = false ∧ t.rxDropCnt = s.rxDropCnt)) ∧
  (∀ (val : Word32) (between : List Instr) (b : Byte) (s u : State),
    (∀ i ∈ between, i ≠ .reset ∧ ∀ v, i ≠ .csrWr 0x00#8 v) →
    runEnabled (.csrWr 0x00#8 val :: between) s = some u → u.rxSt = .chk → u.outValid = false →
    ∃ t, runEnabled (.csrWr 0x00#8 val :: between ++ [.rxByte b]) s = some t ∧
      (b ≠ ~~~ u.rxSum → val.getLsbD 0 = true →
        t.outValid = false ∧ t.rxDropCnt = u.rxDropCnt + 1#32) ∧
      (b ≠ ~~~ u.rxSum → val.getLsbD 0 = false →
        t.outValid = true ∧ t.outFrame.chkOk = false ∧ t.rxDropCnt = u.rxDropCnt) ∧
      (b = ~~~ u.rxSum → t.outValid = true ∧ t.outFrame.chkOk = true ∧ t.rxDropCnt = u.rxDropCnt)) ∧
  ∀ (val : Word32) (sop2 mrsp seq c : Byte) (data : List Byte) (s : State) (k : Nat),
    data.length ≤ 255 → s.rxSt = .hunt → s.outValid = false →
    let bs := inboundBody sop2 mrsp seq data
    k ≤ bs.length → c ≠ ckRx mrsp seq data →
    ∃ t, runEnabled
        (deliverBytes (bs.take k) ++ .csrWr 0x00#8 val :: deliverBytes (bs.drop k ++ [c])) s = some t ∧
      t.rxSt = .hunt ∧ t.rxBadchk = true ∧
      (val.getLsbD 0 = true → t.outValid = false ∧ t.rxDropCnt = s.rxDropCnt + 1#32) ∧
      (val.getLsbD 0 = false → t.outValid = true ∧ t.rxDropCnt = s.rxDropCnt ∧
        t.outFrame = ⟨sop2, mrsp, seq, u8 data.length, data, true, c, false⟩)

/-! ## Field reader -/

/-- EXTRACT_INT answers the closed form of R78 (which the spec marks as derived from the pseudocode): with `a` bytes
available and `V` their big-endian value, 0 past the payload, `V` for a full window, `V << 8` for a short one. Only
the response is written. -/
def Obligations.ExtractIntClosedForm : Prop :=
  ∀ (f : RxFrame) (nbytes : BitVec 4) (start : BitVec 16) (s : State),
    f.data.length = f.dlen.toNat → 1 ≤ nbytes.toNat → nbytes.toNat ≤ 8 →
    let a := min nbytes.toNat (f.dlen.toNat - start.toNat)
    let v := bigEndian ((f.data.drop start.toNat).take a)
    let result :=
      if f.dlen.toNat ≤ start.toNat then 0 else if a = nbytes.toNat then v else v * 256
    exec (.extractInt f nbytes start) s =
      .next { s with responses := s.responses ++ [.ok (.int (BitVec.ofNat 64 result))] }

/-- The result of EXTRACT_INT always fits in `8 * nbytes` bits, so 64 bits lose nothing of it (R78). -/
def Obligations.ExtractIntFitsItsWindow : Prop :=
  ∀ (f : RxFrame) (nbytes : BitVec 4) (start : BitVec 16) (s : State),
    f.data.length = f.dlen.toNat → 1 ≤ nbytes.toNat → nbytes.toNat ≤ 8 →
    extractValue f nbytes.toNat start.toNat < 2 ^ (8 * nbytes.toNat) ∧
    ∃ v : BitVec 64, v.toNat = extractValue f nbytes.toNat start.toNat ∧
      exec (.extractInt f nbytes start) s =
        .next { s with responses := s.responses ++ [.ok (.int v)] }

/-- EXTRACT_INT with `nbytes` 0 or 9..15 is the fault ILLEGAL_OP, whatever the other operands are (R78, R84, R89). That
it is so for a frame outside its domain too is the model's choice of order, DEDUCED in log 9: R89 orders the check
of `nbytes` only before the `start >= dlen` result. -/
def Obligations.ExtractIntFaultsOutsideItsRange : Prop :=
  ∀ (f : RxFrame) (nbytes : BitVec 4) (start : BitVec 16) (s : State),
    nbytes.toNat = 0 ∨ 9 ≤ nbytes.toNat →
      exec (.extractInt f nbytes start) s = .fault (.illegalOp (.nbytes nbytes))

/-- EXTRACT_STR answers the payload bytes from `start` on, `count` of them or as many as there are; nothing past the
payload (R79). Only the response is written. -/
def Obligations.ExtractStrCopiesTheClampedWindow : Prop :=
  ∀ (f : RxFrame) (start count : BitVec 16) (s : State), f.data.length = f.dlen.toNat →
    ∃ l : List Byte,
      exec (.extractStr f start count) s =
        .next { s with responses := s.responses ++ [.ok (.bytes l)] } ∧
      (f.dlen.toNat < start.toNat → l = []) ∧
      l.length = min count.toNat (f.dlen.toNat - start.toNat) ∧
      ∀ k < l.length, l[k]? = f.data[start.toNat + k]?

/-- A frame operand outside its domain `len(data) = dlen` faults (R10, R57; that it is a fault of its own name is the
model's, log 9). -/
def Obligations.FrameOutsideItsDomainFaults : Prop :=
  ∀ (f : RxFrame) (nbytes : BitVec 4) (start count : BitVec 16) (s : State),
    f.data.length ≠ f.dlen.toNat →
    exec (.extractStr f start count) s = .fault .operandOutsideDomain ∧
    (1 ≤ nbytes.toNat → nbytes.toNat ≤ 8 →
      exec (.extractInt f nbytes start) s = .fault .operandOutsideDomain)

/-! ## Control unit -/

/-- CSR_RD (R80), bit by bit: CHK_EN alone in CTRL, five bits in STATUS, the two counters, and 0 everywhere else.
Only the response is written: nothing is cleared by reading. -/
def Obligations.CsrReadValues : Prop :=
  ∀ (idx : BitVec 8) (s : State), ∃ v : Word32,
    exec (.csrRd idx) s = .next { s with responses := s.responses ++ [.ok (.word v)] } ∧
    (idx = 0x00#8 → v.getLsbD 0 = s.chkEn ∧ ∀ k, 1 ≤ k → v.getLsbD k = false) ∧
    (idx = 0x01#8 →
      v.getLsbD 0 = s.outValid ∧ v.getLsbD 1 = s.txBusy ∧
      (v.getLsbD 2 = true ↔ s.rxSt ≠ .hunt) ∧
      v.getLsbD 3 = s.rxBadchk ∧ v.getLsbD 4 = s.txToobig ∧ ∀ k, 5 ≤ k → v.getLsbD k = false) ∧
    (idx = 0x02#8 → v = s.rxDropCnt) ∧
    (idx = 0x03#8 → v = s.rxNoiseCnt) ∧
    (4 ≤ idx.toNat → v = 0x00000000#32)

/-- CSR_WR (R81): bit 0 of CTRL, write-1-to-clear on bits 3 and 4 of STATUS, every other bit and index ignored. All
else is unchanged. -/
def Obligations.CsrWriteEffects : Prop :=
  ∀ (idx : BitVec 8) (val : Word32) (s : State),
    (idx = 0x00#8 →
      exec (.csrWr idx val) s =
        .next { s with chkEn := val.getLsbD 0, responses := s.responses ++ [.ok .none] }) ∧
    (idx = 0x01#8 →
      exec (.csrWr idx val) s =
        .next { s with
          rxBadchk := if val.getLsbD 3 = true then false else s.rxBadchk
          txToobig := if val.getLsbD 4 = true then false else s.txToobig
          responses := s.responses ++ [.ok .none] }) ∧
    (2 ≤ idx.toNat →
      exec (.csrWr idx val) s = .next { s with responses := s.responses ++ [.ok .none] })

/-- RESET (R82), always enabled, in every state: every element R82 names is at its reset value, CTRL and STATUS read 0,
and HOST is answered; after it TX_EMIT and RX_POP hold while TX_SUBMIT and RX_BYTE are enabled. Nothing is said
of the six registers R82 leaves unspecified (free values, log 8). That the ports keep what they hold is the model's
choice (log 2, log 5), and that a held operation answers the state it was given is the model's reading (log 4). -/
def Obligations.ResetRestoresTheResetColumn : Prop :=
  ∀ s : State, held .reset s = false ∧ ∃ t, exec .reset s = .next t ∧
    t.chkEn = false ∧ t.rxBadchk = false ∧ t.txToobig = false ∧
    t.rxDropCnt = 0x00000000#32 ∧ t.rxNoiseCnt = 0x00000000#32 ∧
    t.txBusy = false ∧ t.txIdx = 0#9 ∧ t.txBuf = [] ∧
    t.rxSt = .hunt ∧ t.rxPay = [] ∧ t.outValid = false ∧
    ctrlWord t = 0x00000000#32 ∧ statusWord t = 0x00000000#32 ∧
    exec .txEmit t = .next t ∧ exec .rxPop t = .next t ∧
    (∀ r, held (.txSubmit r) t = false) ∧ (∀ b, held (.rxByte b) t = false) ∧
    t.responses = s.responses ++ [.ok .none] ∧ t.txOut = s.txOut ∧ t.pending = s.pending

/-- Power-on leaves what RESET leaves (R96, R82), in every element whose reset value R28 gives; the other six
registers and the ports are the model's choice (log 7, log 12) and nothing is said of them. -/
def Obligations.PowerOnIsTheResetColumn : Prop :=
  ∀ s t : State, exec .reset s = .next t →
    SameCsr t State.reset ∧ SameTx t State.reset ∧
      State.reset.rxSt = t.rxSt ∧ State.reset.rxPay = t.rxPay ∧
      State.reset.outValid = t.outValid ∧ statusWord State.reset = 0#32 ∧ ctrlWord State.reset = 0#32

/-- RESET discards work in progress: whatever operations follow it, what they send is whole frames of requests accepted
after it, and what is popped was delivered after it; nothing discarded is counted (R97, R82; R97 is marked derived
by the spec). -/
def Obligations.ResetAbandonsWorkInProgress : Prop :=
  ∀ (s t : State) (is : List Instr) (u : State), exec .reset s = .next t →
    t.rxDropCnt = 0#32 ∧ t.rxNoiseCnt = 0#32 ∧
    (Instr.reset ∉ is → runEnabled is t = some u →
      (∃ left, u.txOut = s.txOut ++ left ∧ left <+: acceptedBytes is) ∧
        poppedFrames is t <+: deliveredFrames is t)

/-- A sticky bit is cleared only by RESET or by a CSR_WR of 1 to its position, and set only by the event that names it
(R16, R92, R71, R66). -/
def Obligations.StickyBitsChangeOnlyByTheirEvents : Prop :=
  ∀ (i : Instr) (s t : State), exec i s = .next t →
    (s.rxBadchk = true → t.rxBadchk = false →
      i = .reset ∨ ∃ val, i = .csrWr 0x01#8 val ∧ val.getLsbD 3 = true) ∧
    (s.txToobig = true → t.txToobig = false →
      i = .reset ∨ ∃ val, i = .csrWr 0x01#8 val ∧ val.getLsbD 4 = true) ∧
    (s.rxBadchk = false → t.rxBadchk = true →
      ∃ b, i = .rxByte b ∧ s.rxSt = .chk ∧ b ≠ ~~~ s.rxSum) ∧
    (s.txToobig = false → t.txToobig = true → ∃ r, i = .txSubmit r ∧ 255 < r.data.length)

/-- Clear-then-set: when the write that clears a sticky bit comes before the event that sets it, the bit ends set; the
order in which a realisation must end when both fall in one cycle (R90, with R81, R71 and R66). -/
def Obligations.ClearThenSetLeavesTheBitSet : Prop :=
  (∀ (val : Word32) (b : Byte) (s : State), s.rxSt = .chk → s.outValid = false → b ≠ ~~~ s.rxSum →
    ∃ t, runEnabled [.csrWr 0x01#8 val, .rxByte b] s = some t ∧ t.rxBadchk = true) ∧
  ∀ (val : Word32) (r : TxRequest) (s : State), 255 < r.data.length →
    ∃ t, runEnabled [.csrWr 0x01#8 val, .txSubmit r] s = some t ∧ t.txToobig = true

/-- RX_DROP_CNT counts the frames discarded at a mismatched CHK byte while CHK_EN = 1, modulo 2^32; it reads at index
0x02, ignores writes, is 0 at reset, and only RESET clears it (R17). -/
def Obligations.DropCounterCountsDiscardedFrames : Prop :=
  State.reset.rxDropCnt = 0#32 ∧
  (∀ s : State, readCsr 0x02#8 s = s.rxDropCnt) ∧
  (∀ s t : State, exec .reset s = .next t → t.rxDropCnt = 0#32) ∧
  (∀ (b : Byte) (s t : State), exec (.rxByte b) s = .next t →
    s.rxSt = .chk → s.outValid = false → s.chkEn = true → b ≠ ~~~ s.rxSum →
      t.rxDropCnt = s.rxDropCnt + 1#32 ∧ t.outValid = false) ∧
  ∀ (i : Instr) (s t : State), exec i s = .next t → i ≠ .reset → t.rxDropCnt ≠ s.rxDropCnt →
    (∃ b, i = .rxByte b ∧ b ≠ ~~~ s.rxSum) ∧ s.rxSt = .chk ∧ s.outValid = false ∧ s.chkEn = true

/-- RX_NOISE_CNT counts the bytes other than 0xFF taken while hunting, modulo 2^32; it reads at index 0x03, ignores
writes, is 0 at reset, and only RESET clears it (R18). -/
def Obligations.NoiseCounterCountsDiscardedBytes : Prop :=
  State.reset.rxNoiseCnt = 0#32 ∧
  (∀ s : State, readCsr 0x03#8 s = s.rxNoiseCnt) ∧
  (∀ s t : State, exec .reset s = .next t → t.rxNoiseCnt = 0#32) ∧
  (∀ (b : Byte) (s t : State), exec (.rxByte b) s = .next t →
    s.rxSt = .hunt → b ≠ 0xFF#8 → t.rxNoiseCnt = s.rxNoiseCnt + 1#32) ∧
  ∀ (i : Instr) (s t : State), exec i s = .next t → i ≠ .reset → t.rxNoiseCnt ≠ s.rxNoiseCnt →
    (∃ b, i = .rxByte b ∧ b ≠ 0xFF#8) ∧ s.rxSt = .hunt

/-- The pseudo-operations have the effect of the one operation each stands for (R62): TX_CMD sends a frame with flags
0x01 and no payload, STATUS_CLR clears both sticky bits. -/
def Obligations.PseudoOperations : Prop :=
  (∀ (did cid seq : Byte) (s : State), s.txBusy = false →
    exec (.txCmd did cid seq) s =
      .next { s with
        txBuf := [0xFF#8, 0x01#8, did, cid, seq, 0x00#8, ckTx did cid seq []]
        txIdx := 0#9
        txBusy := true
        responses := s.responses ++ [.ok .none] }) ∧
  ∀ s : State, exec .statusClr s =
    .next { s with
      rxBadchk := false
      txToobig := false
      responses := s.responses ++ [.ok .none] }

/-! ## Errors, agents, invariants -/

/-- The status codes and who raises them (R83): PAYLOAD_TOO_LARGE by TX_SUBMIT alone, MALFORMED_FRAME by DECODE alone,
ILLEGAL_OP by EXTRACT_INT with `nbytes` outside 1..8 (and by a reserved opcode, ReservedOpcodeFaults), each with
its info. The code of a frame operand outside its domain is the model's reading (log 16). -/
def Obligations.ErrorsAndTheirCauses : Prop :=
  (∀ v n, (Response.ok v).status = 0#2 ∧ (Response.payloadTooLarge n).status = 1#2 ∧
    (Response.malformedFrame n).status = 2#2) ∧
  (∀ info, (Response.illegalOp info).status = 3#2) ∧
  Response.operandOutsideDomain.status = 3#2 ∧
  (∀ (i : Instr) (s t : State) (n : Nat), exec i s = .next t →
    t.responses = s.responses ++ [.payloadTooLarge n] →
      ∃ r, i = .txSubmit r ∧ n = r.data.length ∧ 255 < n ∧ t.txToobig = true) ∧
  (∀ (i : Instr) (s t : State) (n : Nat), exec i s = .next t →
    t.responses = s.responses ++ [.malformedFrame n] →
      ∃ buf, i = .decode buf ∧ n = buf.length ∧
        (n < 5 ∨ ∃ d : Byte, buf[4]? = some d ∧ n < 5 + d.toNat)) ∧
  (∀ (i : Instr) (s : State) (info : IllegalInfo), exec i s = .fault (.illegalOp info) →
    ∃ f nbytes start, i = .extractInt f nbytes start ∧ info = .nbytes nbytes ∧
      (nbytes.toNat = 0 ∨ 9 ≤ nbytes.toNat))

/-- Errors are precise: PAYLOAD_TOO_LARGE sets TX_TOOBIG and nothing else, MALFORMED_FRAME changes nothing, apart from
the response that reports them; and a run that goes on after a fault goes on in the state it was in, with the very
operation that raised the fault gone and the fault reported in its response: ILLEGAL_OP with the opcode or `nbytes`
of that operation; a frame operand outside its domain under the model's own name (R85; `afterFault` and the records
of responses are the model's, log 5 and log 6; the response to such a frame is the model's choice, log 16; TX_EMIT has
no response, log 11). -/
def Obligations.ErrorsArePrecise : Prop :=
  (∀ (i : Instr) (s t : State) (n : Nat), exec i s = .next t →
    (t.responses = s.responses ++ [.payloadTooLarge n] →
      t = { s with txToobig := true, responses := t.responses }) ∧
    (t.responses = s.responses ++ [.malformedFrame n] → t = { s with responses := t.responses })) ∧
  ∀ (s : State) (r : Fault), step s = .fault r →
    SameFrm s (afterFault r s) ∧ (afterFault r s).txOut = s.txOut ∧
    ∃ before u later, s.pending = before ++ u :: later ∧
      pick s [] s.pending = some (u, before ++ later) ∧
      (afterFault r s).pending = before ++ later ∧
      ((∃ op, r = .illegalOp (.opcode op) ∧ decodeOp u = .error (.reservedOpcode op) ∧
          u.opcode = op ∧ (afterFault r s).responses = s.responses ++ [.illegalOp (.opcode op)]) ∨
       (∃ f n start, r = .illegalOp (.nbytes n) ∧ decodeOp u = .ok (.extractInt f n start) ∧
          nbytesLegal n = false ∧
          (afterFault r s).responses = s.responses ++ [.illegalOp (.nbytes n)]) ∨
       (∃ f, ((∃ n start, decodeOp u = .ok (.extractInt f n start)) ∨
            ∃ start count, decodeOp u = .ok (.extractStr f start count)) ∧
          r = .operandOutsideDomain ∧ f.wf = false ∧
          (afterFault r s).responses = s.responses ++ [.operandOutsideDomain]) ∨
       (r = .txBufOutOfRange ∧ decodeOp u = .ok .txEmit ∧
          (afterFault r s).responses = s.responses))

/-- The frame of the reading operations: DECODE, EXTRACT_INT, EXTRACT_STR and CSR_RD leave every register of FRM, what
has been sent and what is offered as they were; reading a register twice gives the same value; RX_POP twice in a row
holds (R36, which the spec marks as derived). -/
def Obligations.ReadsHaveNoSideEffects : Prop :=
  (∀ (i : Instr) (s t : State), exec i s = .next t →
    (∃ buf, i = .decode buf) ∨ (∃ f n st, i = .extractInt f n st) ∨
      (∃ f st c, i = .extractStr f st c) ∨ (∃ idx, i = .csrRd idx) →
    SameFrm s t ∧ t.txOut = s.txOut ∧ t.pending = s.pending) ∧
  (∀ (idx : BitVec 8) (s t : State), exec (.csrRd idx) s = .next t →
    readCsr idx t = readCsr idx s) ∧
  ∀ s t : State, s.outValid = true → exec .rxPop s = .next t → exec .rxPop t = .next t

/-- Which operations write which element: the "written by" column of R28, RESET apart. -/
def Obligations.ElementsAreWrittenOnlyByTheirOperations : Prop :=
  ∀ (i : Instr) (s t : State), exec i s = .next t → i ≠ .reset →
    (t.chkEn ≠ s.chkEn → ∃ x v, i = .csrWr x v) ∧
    (t.rxBadchk ≠ s.rxBadchk → (∃ b, i = .rxByte b) ∨ ∃ x v, i = .csrWr x v) ∧
    (t.txToobig ≠ s.txToobig → (∃ r, i = .txSubmit r) ∨ ∃ x v, i = .csrWr x v) ∧
    (t.rxDropCnt ≠ s.rxDropCnt ∨ t.rxNoiseCnt ≠ s.rxNoiseCnt → ∃ b, i = .rxByte b) ∧
    (t.txBusy ≠ s.txBusy ∨ t.txIdx ≠ s.txIdx → (∃ r, i = .txSubmit r) ∨ i = .txEmit) ∧
    (t.txBuf ≠ s.txBuf → ∃ r, i = .txSubmit r) ∧
    (¬ SameRx s t → ∃ b, i = .rxByte b) ∧
    (t.outValid ≠ s.outValid → (∃ b, i = .rxByte b) ∨ i = .rxPop) ∧
    (t.outFrame ≠ s.outFrame → ∃ b, i = .rxByte b) ∧
    (t.txOut ≠ s.txOut → i = .txEmit) ∧
    t.pending = s.pending

/-- A TX_EMIT step neither writes nor reads anything of the RX side or of the control registers, and an RX_BYTE step
nothing of the TX side: two states that share what the step may read give next states that share what it may write
(R94). -/
def Obligations.PortStepsStayOnTheirSide : Prop :=
  (∀ s t : State, exec .txEmit s = .next t →
    SameRx s t ∧ SameOut s t ∧ SameCsr s t ∧ t.responses = s.responses) ∧
  (∀ (b : Byte) (s t : State), exec (.rxByte b) s = .next t →
    SameTx s t ∧ t.txOut = s.txOut ∧ t.chkEn = s.chkEn ∧ t.txToobig = s.txToobig ∧
      t.responses = s.responses) ∧
  (∀ s s' t t' : State, SameTx s s' → exec .txEmit s = .next t → exec .txEmit s' = .next t' →
    SameTx t t' ∧ ∃ sent, t.txOut = s.txOut ++ sent ∧ t'.txOut = s'.txOut ++ sent) ∧
  (∀ (b : Byte) (s s' t t' : State), SameRx s s' → SameOut s s' → s'.chkEn = s.chkEn →
    exec (.rxByte b) s = .next t → exec (.rxByte b) s' = .next t' →
      SameRx t t' ∧ SameOut t t' ∧
      (s'.rxNoiseCnt = s.rxNoiseCnt → t'.rxNoiseCnt = t.rxNoiseCnt) ∧
      (s'.rxDropCnt = s.rxDropCnt → t'.rxDropCnt = t.rxDropCnt) ∧
      (s'.rxBadchk = s.rxBadchk → t'.rxBadchk = t.rxBadchk))

/-- A TX_EMIT step and an RX_BYTE step commute (R40, which the spec marks as derived). -/
def Obligations.TransmitAndReceiveCommute : Prop :=
  ∀ (b : Byte) (s t u : State), exec .txEmit s = .next t → exec (.rxByte b) s = .next u →
    ∃ v, exec (.rxByte b) t = .next v ∧ exec .txEmit u = .next v

/-- Every step keeps the invariant of FRM: R19's for the TX framer, a whole frame in flight, the deframer's count and
sum, and R25's for the delivered frame. -/
def Obligations.StepKeepsTheInvariant : Prop :=
  ∀ s t : State, Inv s → step s = .next t → Inv t

/-- The state after power-on meets the invariant of FRM (R96, R19, R25). -/
def Obligations.PowerOnMeetsTheInvariant : Prop :=
  Inv State.reset

/-- In a state that meets the invariant a step faults only because an operation is outside FRM's domain: a reserved
opcode, `nbytes` outside 1..8, or a frame operand with `len(data)` other than `dlen`; `tx_buf` is never read past its
end (R10, R23, R84; log 9, log 11). -/
def Obligations.StepFaultsOnlyOutsideTheDomain : Prop :=
  ∀ (s : State) (r : Fault), Inv s → step s = .fault r →
    (∃ u ∈ s.pending, r = .illegalOp (.opcode u.opcode) ∧ opNameOf u.opcode = none) ∨
    (∃ u ∈ s.pending, ∃ i, decodeOp u = .ok i ∧ i.wellFormed = false ∧
      (r = .operandOutsideDomain ∨ ∃ n, r = .illegalOp (.nbytes n)))

/-- Registers whose reset value is unspecified are never read before a rule has written them: two states that differ
only in such registers answer every step alike, and stay so related (R23, which the spec marks as derived; so no
run depends on the values the model names for them, log 7 and log 8). -/
def Obligations.UnwrittenRegistersAreNeverObserved : Prop :=
  ∀ s t : State, AgreeWhereWritten s t → AnswersAgree (step s) (step t)
end

