-- ==== Sys2Proof/Laws/State.lean ====
section
/-! SUPPORT. One lemma per field for each named update of the state, and what two states share under them. -/

namespace Sys2Proof.Machine

@[simp] theorem State.addResponse_chkEn (s : State) (r : Response) : (s.addResponse r).chkEn = s.chkEn := rfl
@[simp] theorem State.addResponse_rxBadchk (s : State) (r : Response) : (s.addResponse r).rxBadchk = s.rxBadchk := rfl
@[simp] theorem State.addResponse_txToobig (s : State) (r : Response) : (s.addResponse r).txToobig = s.txToobig := rfl
@[simp] theorem State.addResponse_rxDropCnt (s : State) (r : Response) : (s.addResponse r).rxDropCnt = s.rxDropCnt := rfl
@[simp] theorem State.addResponse_rxNoiseCnt (s : State) (r : Response) : (s.addResponse r).rxNoiseCnt = s.rxNoiseCnt := rfl
@[simp] theorem State.addResponse_txBusy (s : State) (r : Response) : (s.addResponse r).txBusy = s.txBusy := rfl
@[simp] theorem State.addResponse_txBuf (s : State) (r : Response) : (s.addResponse r).txBuf = s.txBuf := rfl
@[simp] theorem State.addResponse_txIdx (s : State) (r : Response) : (s.addResponse r).txIdx = s.txIdx := rfl
@[simp] theorem State.addResponse_rxSt (s : State) (r : Response) : (s.addResponse r).rxSt = s.rxSt := rfl
@[simp] theorem State.addResponse_rxSop2 (s : State) (r : Response) : (s.addResponse r).rxSop2 = s.rxSop2 := rfl
@[simp] theorem State.addResponse_rxMrsp (s : State) (r : Response) : (s.addResponse r).rxMrsp = s.rxMrsp := rfl
@[simp] theorem State.addResponse_rxSeq (s : State) (r : Response) : (s.addResponse r).rxSeq = s.rxSeq := rfl
@[simp] theorem State.addResponse_rxDlen (s : State) (r : Response) : (s.addResponse r).rxDlen = s.rxDlen := rfl
@[simp] theorem State.addResponse_rxPay (s : State) (r : Response) : (s.addResponse r).rxPay = s.rxPay := rfl
@[simp] theorem State.addResponse_rxSum (s : State) (r : Response) : (s.addResponse r).rxSum = s.rxSum := rfl
@[simp] theorem State.addResponse_outValid (s : State) (r : Response) : (s.addResponse r).outValid = s.outValid := rfl
@[simp] theorem State.addResponse_outFrame (s : State) (r : Response) : (s.addResponse r).outFrame = s.outFrame := rfl
@[simp] theorem State.addResponse_pending (s : State) (r : Response) : (s.addResponse r).pending = s.pending := rfl
@[simp] theorem State.addResponse_txOut (s : State) (r : Response) : (s.addResponse r).txOut = s.txOut := rfl
@[simp] theorem State.addResponse_responses (s : State) (r : Response) : (s.addResponse r).responses = s.responses ++ [r] := rfl
@[simp] theorem State.addResponse_draws (s : State) (r : Response) : (s.addResponse r).draws = s.draws := rfl

@[simp] theorem State.emit_chkEn (s : State) (b : Byte) : (s.emit b).chkEn = s.chkEn := rfl
@[simp] theorem State.emit_rxBadchk (s : State) (b : Byte) : (s.emit b).rxBadchk = s.rxBadchk := rfl
@[simp] theorem State.emit_txToobig (s : State) (b : Byte) : (s.emit b).txToobig = s.txToobig := rfl
@[simp] theorem State.emit_rxDropCnt (s : State) (b : Byte) : (s.emit b).rxDropCnt = s.rxDropCnt := rfl
@[simp] theorem State.emit_rxNoiseCnt (s : State) (b : Byte) : (s.emit b).rxNoiseCnt = s.rxNoiseCnt := rfl
@[simp] theorem State.emit_txBusy (s : State) (b : Byte) : (s.emit b).txBusy = s.txBusy := rfl
@[simp] theorem State.emit_txBuf (s : State) (b : Byte) : (s.emit b).txBuf = s.txBuf := rfl
@[simp] theorem State.emit_txIdx (s : State) (b : Byte) : (s.emit b).txIdx = s.txIdx := rfl
@[simp] theorem State.emit_rxSt (s : State) (b : Byte) : (s.emit b).rxSt = s.rxSt := rfl
@[simp] theorem State.emit_rxSop2 (s : State) (b : Byte) : (s.emit b).rxSop2 = s.rxSop2 := rfl
@[simp] theorem State.emit_rxMrsp (s : State) (b : Byte) : (s.emit b).rxMrsp = s.rxMrsp := rfl
@[simp] theorem State.emit_rxSeq (s : State) (b : Byte) : (s.emit b).rxSeq = s.rxSeq := rfl
@[simp] theorem State.emit_rxDlen (s : State) (b : Byte) : (s.emit b).rxDlen = s.rxDlen := rfl
@[simp] theorem State.emit_rxPay (s : State) (b : Byte) : (s.emit b).rxPay = s.rxPay := rfl
@[simp] theorem State.emit_rxSum (s : State) (b : Byte) : (s.emit b).rxSum = s.rxSum := rfl
@[simp] theorem State.emit_outValid (s : State) (b : Byte) : (s.emit b).outValid = s.outValid := rfl
@[simp] theorem State.emit_outFrame (s : State) (b : Byte) : (s.emit b).outFrame = s.outFrame := rfl
@[simp] theorem State.emit_pending (s : State) (b : Byte) : (s.emit b).pending = s.pending := rfl
@[simp] theorem State.emit_txOut (s : State) (b : Byte) : (s.emit b).txOut = s.txOut ++ [b] := rfl
@[simp] theorem State.emit_responses (s : State) (b : Byte) : (s.emit b).responses = s.responses := rfl
@[simp] theorem State.emit_draws (s : State) (b : Byte) : (s.emit b).draws = s.draws := rfl

@[simp] theorem State.setPending_chkEn (s : State) (ts : List Transaction) : (s.setPending ts).chkEn = s.chkEn := rfl
@[simp] theorem State.setPending_rxBadchk (s : State) (ts : List Transaction) : (s.setPending ts).rxBadchk = s.rxBadchk := rfl
@[simp] theorem State.setPending_txToobig (s : State) (ts : List Transaction) : (s.setPending ts).txToobig = s.txToobig := rfl
@[simp] theorem State.setPending_rxDropCnt (s : State) (ts : List Transaction) : (s.setPending ts).rxDropCnt = s.rxDropCnt := rfl
@[simp] theorem State.setPending_rxNoiseCnt (s : State) (ts : List Transaction) : (s.setPending ts).rxNoiseCnt = s.rxNoiseCnt := rfl
@[simp] theorem State.setPending_txBusy (s : State) (ts : List Transaction) : (s.setPending ts).txBusy = s.txBusy := rfl
@[simp] theorem State.setPending_txBuf (s : State) (ts : List Transaction) : (s.setPending ts).txBuf = s.txBuf := rfl
@[simp] theorem State.setPending_txIdx (s : State) (ts : List Transaction) : (s.setPending ts).txIdx = s.txIdx := rfl
@[simp] theorem State.setPending_rxSt (s : State) (ts : List Transaction) : (s.setPending ts).rxSt = s.rxSt := rfl
@[simp] theorem State.setPending_rxSop2 (s : State) (ts : List Transaction) : (s.setPending ts).rxSop2 = s.rxSop2 := rfl
@[simp] theorem State.setPending_rxMrsp (s : State) (ts : List Transaction) : (s.setPending ts).rxMrsp = s.rxMrsp := rfl
@[simp] theorem State.setPending_rxSeq (s : State) (ts : List Transaction) : (s.setPending ts).rxSeq = s.rxSeq := rfl
@[simp] theorem State.setPending_rxDlen (s : State) (ts : List Transaction) : (s.setPending ts).rxDlen = s.rxDlen := rfl
@[simp] theorem State.setPending_rxPay (s : State) (ts : List Transaction) : (s.setPending ts).rxPay = s.rxPay := rfl
@[simp] theorem State.setPending_rxSum (s : State) (ts : List Transaction) : (s.setPending ts).rxSum = s.rxSum := rfl
@[simp] theorem State.setPending_outValid (s : State) (ts : List Transaction) : (s.setPending ts).outValid = s.outValid := rfl
@[simp] theorem State.setPending_outFrame (s : State) (ts : List Transaction) : (s.setPending ts).outFrame = s.outFrame := rfl
@[simp] theorem State.setPending_pending (s : State) (ts : List Transaction) : (s.setPending ts).pending = ts := rfl
@[simp] theorem State.setPending_txOut (s : State) (ts : List Transaction) : (s.setPending ts).txOut = s.txOut := rfl
@[simp] theorem State.setPending_responses (s : State) (ts : List Transaction) : (s.setPending ts).responses = s.responses := rfl
@[simp] theorem State.setPending_draws (s : State) (ts : List Transaction) : (s.setPending ts).draws = s.draws := rfl

@[simp] theorem clearState_chkEn (s : State) : (clearState s).chkEn = false := rfl
@[simp] theorem clearState_rxBadchk (s : State) : (clearState s).rxBadchk = false := rfl
@[simp] theorem clearState_txToobig (s : State) : (clearState s).txToobig = false := rfl
@[simp] theorem clearState_rxDropCnt (s : State) : (clearState s).rxDropCnt = 0#32 := rfl
@[simp] theorem clearState_rxNoiseCnt (s : State) : (clearState s).rxNoiseCnt = 0#32 := rfl
@[simp] theorem clearState_txBusy (s : State) : (clearState s).txBusy = false := rfl
@[simp] theorem clearState_txBuf (s : State) : (clearState s).txBuf = [] := rfl
@[simp] theorem clearState_txIdx (s : State) : (clearState s).txIdx = 0#9 := rfl
@[simp] theorem clearState_rxSt (s : State) : (clearState s).rxSt = .hunt := rfl
@[simp] theorem clearState_rxPay (s : State) : (clearState s).rxPay = [] := rfl
@[simp] theorem clearState_outValid (s : State) : (clearState s).outValid = false := rfl
@[simp] theorem clearState_pending (s : State) : (clearState s).pending = s.pending := rfl
@[simp] theorem clearState_txOut (s : State) : (clearState s).txOut = s.txOut := rfl
@[simp] theorem clearState_responses (s : State) : (clearState s).responses = s.responses := rfl

@[simp] theorem State.setPending_self (s : State) : s.setPending s.pending = s := rfl

@[simp] theorem State.setPending_setPending (s : State) (ts us : List Transaction) :
    (s.setPending ts).setPending us = s.setPending us := rfl

@[simp] theorem State.setPending_addResponse (s : State) (r : Response) (ts : List Transaction) :
    (s.addResponse r).setPending ts = (s.setPending ts).addResponse r := rfl

@[simp] theorem State.setPending_emit (s : State) (b : Byte) (ts : List Transaction) :
    (s.emit b).setPending ts = (s.setPending ts).emit b := rfl

/-- An answered state is never the state before: the log of responses has grown. -/
theorem State.addResponse_ne (s : State) (r : Response) : s.addResponse r ≠ s := by
  intro h
  simpa using congrArg (fun t => t.responses.length) h

/-- A state that has sent a byte is never the state before. -/
theorem State.txOut_append_ne (s t : State) (b : Byte) (h : t.txOut = s.txOut ++ [b]) : t ≠ s := by
  intro e
  simp [e] at h

end Sys2Proof.Machine
end

