-- ==== Sys2Proof/Laws/Ops.lean ====
section
/-! SUPPORT. What the shared operations do, said once: checksums, wire formats, answers, enabling conditions. -/

namespace Sys2Proof

@[simp] theorem byteSum_nil : byteSum [] = 0 := rfl

@[simp] theorem byteSum_cons (b : Byte) (bs : List Byte) :
    byteSum (b :: bs) = b.toNat + byteSum bs := rfl

@[simp] theorem byteSum_append (l m : List Byte) : byteSum (l ++ m) = byteSum l + byteSum m := by
  induction l with
  | nil => simp
  | cons b bs ih => simp [ih, Nat.add_assoc]

@[simp] theorem u8_toNat (n : Nat) : (u8 n).toNat = n % 256 := by
  simp [u8]

theorem RxFrame.wf_iff (f : RxFrame) : f.wf = true ↔ f.data.length = f.dlen.toNat := by
  simp [RxFrame.wf]

theorem nbytesLegal_iff (n : BitVec 4) : nbytesLegal n = true ↔ 1 ≤ n.toNat ∧ n.toNat ≤ 8 := by
  simp [nbytesLegal, Config.extractMaxN]

namespace Machine

/-- The checksum as a number (R63). -/
theorem ck8_toNat (l : List Byte) : (ck8 l).toNat = 255 - byteSum l % 256 := by
  simp [ck8]

@[simp] theorem frameBytes_length (r : TxRequest) :
    (frameBytes r).length = 7 + r.data.length := by
  simp [frameBytes]; omega

theorem tooLarge_iff (r : TxRequest) : tooLarge r = true ↔ 255 < r.data.length := by
  simp [tooLarge, Config.maxPayload]

theorem tooLarge_eq_false (r : TxRequest) : tooLarge r = false ↔ r.data.length ≤ 255 := by
  simp [tooLarge, Config.maxPayload]

theorem txSubmitHeld_iff (r : TxRequest) (s : State) :
    txSubmitHeld r s = true ↔ r.data.length ≤ 255 ∧ s.txBusy = true := by
  simp [txSubmitHeld, tooLarge, Config.maxPayload]

theorem rxByteHeld_iff (s : State) :
    rxByteHeld s = true ↔ s.rxSt = .chk ∧ s.outValid = true := by
  simp [rxByteHeld]

/-- The value 7 of `rx_st` is never reached (10_state.md R20). -/
theorem rxStCode_lt (st : RxSt) : (rxStCode st).toNat < 7 := by
  cases st <;> decide

/-- The header is incomplete (R76). -/
theorem parseFrame_shortHeader (buf : List Byte) (h : buf.length < 5) : parseFrame buf = none := by
  unfold parseFrame
  split
  · simp at h; omega
  · rfl

/-- The enabling conditions do not look at what else is offered. -/
@[simp] theorem held_setPending (i : Instr) (s : State) (ts : List Transaction) :
    held i (s.setPending ts) = held i s := by
  cases i <;> rfl

end Machine

end Sys2Proof
end

