-- ==== Sys2Proof/Laws/Exec.lean ====
section
/-! SUPPORT. What each meaning can do when it answers a next state, said once; later proofs cite these instead of
unfolding the meanings. -/

namespace Sys2Proof.Machine

/-- TX_SUBMIT rejects, holds or accepts (R66). -/
theorem execTxSubmit_cases {r : TxRequest} {s t : State} (h : execTxSubmit r s = .next t) :
    (255 < r.data.length ∧
      t = ({ s with txToobig := true } : State).addResponse (.payloadTooLarge r.data.length)) ∨
    (r.data.length ≤ 255 ∧ s.txBusy = true ∧ t = s) ∨
    (r.data.length ≤ 255 ∧ s.txBusy = false ∧ t = (loadFrame r s).addResponse (.ok .none)) := by
  unfold execTxSubmit at h
  split at h
  · next hl => exact .inl ⟨(tooLarge_iff r).1 hl, by simpa [respond, raiseError, hold] using h.symm⟩
  · next hl =>
    have hl' := (tooLarge_eq_false r).1 (by simpa using hl)
    split at h
    · next hh => exact .inr (.inl ⟨hl', ((txSubmitHeld_iff r s).1 hh).2, by simpa [respond, raiseError, hold] using h.symm⟩)
    · next hh =>
      refine .inr (.inr ⟨hl', ?_, by simpa [respond, raiseError, hold] using h.symm⟩)
      simpa [txSubmitHeld_iff, hl'] using hh

/-- TX_EMIT holds, or sends the byte at `tx_idx` and moves on (R67). -/
theorem execTxEmit_cases {s t : State} (h : execTxEmit s = .next t) :
    (s.txBusy = false ∧ t = s) ∨
    (s.txBusy = true ∧ ∃ b, s.txBuf[s.txIdx.toNat]? = some b ∧ t = (advanceTx s).emit b) := by
  unfold execTxEmit at h
  split at h
  · next hh => exact .inl ⟨by simpa [txEmitHeld] using hh, by simpa [respond, raiseError, hold] using h.symm⟩
  · next hh =>
    refine .inr ⟨by simpa [txEmitHeld] using hh, ?_⟩
    split at h
    · cases h
    · next b hb => exact ⟨b, hb, by simpa [respond, raiseError, hold] using h.symm⟩

/-- RX_BYTE always answers a next state: it holds or the deframer accepts the byte (R70, R72). -/
theorem execRxByte_cases (b : Byte) (s : State) :
    (s.rxSt = .chk ∧ s.outValid = true ∧ execRxByte b s = .next s) ∨
    (¬ (s.rxSt = .chk ∧ s.outValid = true) ∧ execRxByte b s = .next (acceptByte b s)) := by
  unfold execRxByte
  split
  · next hh =>
    obtain ⟨h1, h2⟩ := (rxByteHeld_iff s).1 hh
    exact .inl ⟨h1, h2, rfl⟩
  · next hh => exact .inr ⟨fun h => hh ((rxByteHeld_iff s).2 h), rfl⟩

/-- RX_POP holds or answers the delivered frame (R75). -/
theorem execRxPop_cases {s t : State} (h : execRxPop s = .next t) :
    (s.outValid = false ∧ t = s) ∨
    (s.outValid = true ∧
      t = ({ s with outValid := false } : State).addResponse (.ok (.frame s.outFrame))) := by
  unfold execRxPop at h
  split at h
  · next hh => exact .inl ⟨by simpa [rxPopHeld] using hh, by simpa [respond, raiseError, hold] using h.symm⟩
  · next hh => exact .inr ⟨by simpa [rxPopHeld] using hh, by simpa [respond, raiseError, hold] using h.symm⟩

/-- DECODE always answers; it adds a response and does nothing else (R76). -/
theorem execDecode_eq (buf : List Byte) (s : State) :
    ∃ r, execDecode buf s = .next (s.addResponse r) ∧
      (r = .malformedFrame buf.length ∧ parseFrame buf = none ∨
        ∃ f, r = .ok (.frame f) ∧ parseFrame buf = some f) := by
  unfold execDecode
  split
  · next h => exact ⟨_, rfl, .inl ⟨rfl, h⟩⟩
  · next f h => exact ⟨_, rfl, .inr ⟨f, rfl, h⟩⟩

/-- EXTRACT_INT that answers adds a response and does nothing else (R78). -/
theorem execExtractInt_cases {f : RxFrame} {n : BitVec 4} {start : BitVec 16} {s t : State}
    (h : execExtractInt f n start s = .next t) :
    nbytesLegal n = true ∧ f.wf = true ∧
      t = s.addResponse (.ok (.int (BitVec.ofNat 64 (extractValue f n.toNat start.toNat)))) := by
  unfold execExtractInt at h
  split at h
  · next hn =>
    split at h
    · next hf => exact ⟨hn, hf, by simpa [respond, raiseError, hold] using h.symm⟩
    · cases h
  · simp [illegalOp] at h

/-- EXTRACT_STR that answers adds a response and does nothing else (R79). -/
theorem execExtractStr_cases {f : RxFrame} {start count : BitVec 16} {s t : State}
    (h : execExtractStr f start count s = .next t) :
    f.wf = true ∧
      t = s.addResponse (.ok (.bytes (extractBytes f start.toNat count.toNat))) := by
  unfold execExtractStr at h
  split at h
  · next hf => exact ⟨hf, by simpa [respond, raiseError, hold] using h.symm⟩
  · cases h

/-- CSR_RD always answers (R80). -/
theorem execCsrRd_eq (idx : BitVec 8) (s : State) :
    execCsrRd idx s = .next (s.addResponse (.ok (.word (readCsr idx s)))) := rfl

/-- CSR_WR always answers (R81). -/
theorem execCsrWr_eq (idx : BitVec 8) (val : Word32) (s : State) :
    execCsrWr idx val s = .next ((writeCsr idx val s).addResponse (.ok .none)) := rfl

/-- RESET always answers (R82). -/
theorem execReset_eq (s : State) :
    execReset s = .next ((clearState s).addResponse (.ok .none)) := rfl

/-- The states a CSR_WR can leave (R81). -/
theorem writeCsr_cases (idx : BitVec 8) (val : Word32) (s : State) :
    (idx = 0x00#8 ∧ writeCsr idx val s = { s with chkEn := val.getLsbD 0 }) ∨
    (idx = 0x01#8 ∧ writeCsr idx val s =
      { s with
        rxBadchk := w1c (val.getLsbD 3) s.rxBadchk
        txToobig := w1c (val.getLsbD 4) s.txToobig }) ∨
    (2 ≤ idx.toNat ∧ writeCsr idx val s = s) := by
  unfold writeCsr
  split
  · next h => exact .inl ⟨BitVec.eq_of_toNat_eq h, rfl⟩
  · next h => exact .inr (.inl ⟨BitVec.eq_of_toNat_eq h, rfl⟩)
  · next h0 h1 =>
    refine .inr (.inr ⟨?_, rfl⟩)
    have h0' : idx.toNat ≠ 0 := h0
    have h1' : idx.toNat ≠ 1 := h1
    omega

/-- What the CHK byte leaves, delivered or dropped (R71). -/
theorem acceptChk_cases (b : Byte) (s : State) :
    ((b = ~~~ s.rxSum ∨ s.chkEn = false) ∧ acceptChk b s =
      { s with
        rxBadchk := s.rxBadchk || !chkMatches b s
        outFrame := completedFrame b s
        outValid := true, rxPay := [], rxSt := .hunt }) ∨
    (b ≠ ~~~ s.rxSum ∧ s.chkEn = true ∧ acceptChk b s =
      { s with
        rxBadchk := true, rxDropCnt := s.rxDropCnt + 1#32, rxPay := [], rxSt := .hunt }) := by
  by_cases hb : b = ~~~ s.rxSum
  · exact .inl ⟨.inl hb, by simp [acceptChk, verifyFrame, chkMatches, hb]⟩
  · cases hc : s.chkEn
    · exact .inl ⟨.inr rfl, by simp [acceptChk, verifyFrame, chkMatches, hc]⟩
    · exact .inr ⟨hb, rfl, by simp [acceptChk, verifyFrame, chkMatches, hb, hc]⟩

@[simp] theorem advanceTx_setPending (s : State) (ts : List Transaction) :
    advanceTx (s.setPending ts) = (advanceTx s).setPending ts := by
  unfold advanceTx
  rw [apply_ite (State.setPending · ts)]
  rfl

@[simp] theorem acceptHunt_setPending (b : Byte) (s : State) (ts : List Transaction) :
    acceptHunt b (s.setPending ts) = (acceptHunt b s).setPending ts := by
  unfold acceptHunt
  rw [apply_ite (State.setPending · ts)]
  rfl

@[simp] theorem acceptChk_setPending (b : Byte) (s : State) (ts : List Transaction) :
    acceptChk b (s.setPending ts) = (acceptChk b s).setPending ts := by
  have hm : chkMatches b (s.setPending ts) = chkMatches b s := rfl
  simp only [acceptChk, verifyFrame, hm, State.setPending_chkEn]
  cases chkMatches b s || !s.chkEn <;> rfl

@[simp] theorem acceptByte_setPending (b : Byte) (s : State) (ts : List Transaction) :
    acceptByte b (s.setPending ts) = (acceptByte b s).setPending ts := by
  simp only [acceptByte, State.setPending_rxSt]
  cases s.rxSt <;> first | rfl | simp

@[simp] theorem writeCsr_setPending (idx : BitVec 8) (val : Word32) (s : State)
    (ts : List Transaction) :
    writeCsr idx val (s.setPending ts) = (writeCsr idx val s).setPending ts := by
  unfold writeCsr
  split <;> rfl

/-- The same answer with other operations offered. -/
def withPending (o : Result) (ts : List Transaction) : Result :=
  match o with
  | .next t => .next (t.setPending ts)
  | .fault r => .fault r
  | .refused r => .refused r

theorem execTxEmit_setPending (s : State) (ts : List Transaction) :
    execTxEmit (s.setPending ts) = withPending (execTxEmit s) ts := by
  have h : txEmitHeld (s.setPending ts) = txEmitHeld s := rfl
  simp only [execTxEmit, h, advanceTx_setPending, State.setPending_txBuf, State.setPending_txIdx]
  split
  · rfl
  · split <;> rfl

theorem execTxSubmit_setPending (r : TxRequest) (s : State) (ts : List Transaction) :
    execTxSubmit r (s.setPending ts) = withPending (execTxSubmit r s) ts := by
  have h : txSubmitHeld r (s.setPending ts) = txSubmitHeld r s := rfl
  simp only [execTxSubmit, h]
  split
  · rfl
  · split <;> rfl

theorem execRxByte_setPending (b : Byte) (s : State) (ts : List Transaction) :
    execRxByte b (s.setPending ts) = withPending (execRxByte b s) ts := by
  have h : rxByteHeld (s.setPending ts) = rxByteHeld s := rfl
  simp only [execRxByte, h, acceptByte_setPending]
  split <;> rfl

/-- Running an operation does not look at what else is offered, and leaves it as it was (R6; log 2). -/
theorem exec_setPending (i : Instr) (s : State) (ts : List Transaction) :
    exec i (s.setPending ts) = withPending (exec i s) ts := by
  cases i with
  | txSubmit r => exact execTxSubmit_setPending r s ts
  | txEmit => exact execTxEmit_setPending s ts
  | rxByte b => exact execRxByte_setPending b s ts
  | rxPop =>
    have h : rxPopHeld (s.setPending ts) = rxPopHeld s := rfl
    simp only [exec, execRxPop, h]
    split <;> rfl
  | decode buf => simp only [exec, execDecode]; split <;> rfl
  | extractInt f n st =>
    simp only [exec, execExtractInt]
    split
    · split <;> rfl
    · rfl
  | extractStr f st c => simp only [exec, execExtractStr]; split <;> rfl
  | csrRd idx => rfl
  | csrWr idx v => simp only [exec, execCsrWr, writeCsr_setPending]; rfl
  | reset => rfl

end Sys2Proof.Machine
end

