-- ==== Sys2Proof/Laws/Step.lean ====
section
/-! SUPPORT. Which offered operation a step takes, said once. -/

namespace Sys2Proof.Machine

/-- The step takes the first offered operation if it need not wait (log 2). -/
theorem pick_free {s : State} {waiting : List Agent} {t : Transaction} {ts : List Transaction}
    (h : mustWait waiting t s = false) : pick s waiting (t :: ts) = some (t, ts) := by
  simp [pick, h]

/-- The step passes over an operation that must wait (log 2). -/
theorem pick_waits {s : State} {waiting : List Agent} {t : Transaction} {ts : List Transaction}
    (h : mustWait waiting t s = true) :
    pick s waiting (t :: ts) =
      (pick s (transactionAgent t :: waiting) ts).map (fun p => (p.1, t :: p.2)) := by
  simp only [pick, h, if_true]
  cases pick s (transactionAgent t :: waiting) ts <;> rfl

/-- What is taken was offered, and nothing else is lost. -/
theorem pick_mem {s : State} {waiting : List Agent} {ts left : List Transaction} {t : Transaction}
    (h : pick s waiting ts = some (t, left)) :
    ∃ before later, ts = before ++ t :: later ∧ left = before ++ later := by
  induction ts generalizing waiting left with
  | nil => simp [pick] at h
  | cons u us ih =>
    cases hw : mustWait waiting u s
    · rw [pick_free hw] at h
      simp only [Option.some.injEq, Prod.mk.injEq] at h
      exact ⟨[], us, by simp [h.1], by simp [h.2]⟩
    · rw [pick_waits hw] at h
      simp only [Option.map_eq_some_iff, Prod.mk.injEq] at h
      obtain ⟨⟨v, rest⟩, hp, rfl, rfl⟩ := h
      obtain ⟨before, later, h1, h2⟩ := ih hp
      exact ⟨u :: before, later, by simp [h1], by simp [h2]⟩

/-- An operation that decodes and holds makes its transaction wait. -/
theorem mustWait_of_held {s : State} {waiting : List Agent} {t : Transaction} {i : Instr}
    (hd : decodeOp t = .ok i) (hh : held i s = true) : mustWait waiting t s = true := by
  simp [mustWait, transactionHeld, hd, hh]

/-- A run that goes on past a fault goes on with the operation taken gone and the fault reported, if its operation has a
response (R85; log 6, log 16). -/
theorem afterFault_of_pick {s : State} {t : Transaction} {left : List Transaction} (r : Fault)
    (h : pick s [] s.pending = some (t, left)) :
    afterFault r s =
      { s with pending := left, responses := s.responses ++ (faultResponse r).toList } := by
  cases r <;> simp [afterFault, h, faultResponse, State.setPending, State.addResponse]

/-- The three ways a step goes: nothing to take, an operation run, or a transaction that does not decode. -/
theorem step_cases (s : State) :
    (pick s [] s.pending = none ∧ step s = .next s) ∨
    (∃ t left i, pick s [] s.pending = some (t, left) ∧ decodeOp t = .ok i ∧
      step s = exec i (s.setPending left)) ∨
    (∃ t left op, pick s [] s.pending = some (t, left) ∧
      decodeOp t = .error (.reservedOpcode op) ∧ step s = .fault (.illegalOp (.opcode op))) ∨
    (∃ t left op, pick s [] s.pending = some (t, left) ∧
      decodeOp t = .error (.operandShape op) ∧ step s = .refused (.operandShape op)) := by
  cases hp : pick s [] s.pending with
  | none => exact .inl ⟨rfl, by simp [step, hp]⟩
  | some p =>
    obtain ⟨t, left⟩ := p
    cases hd : decodeOp t with
    | ok i => exact .inr (.inl ⟨t, left, i, rfl, hd, by simp [step, hp, hd]⟩)
    | error e =>
      cases e with
      | reservedOpcode op =>
        exact .inr (.inr (.inl ⟨t, left, op, rfl, hd, by simp [step, hp, hd, illegalOp]⟩))
      | operandShape op =>
        exact .inr (.inr (.inr ⟨t, left, op, rfl, hd, by simp [step, hp, hd]⟩))

end Sys2Proof.Machine
end

