-- ==== Sys2Proof/Laws/Frames.lean ====
section
/-! SUPPORT. What the deframer and the framer leave alone, and the inversion of exec over all ten operations; proofs
about every operation start from `exec_cases`. -/

namespace Sys2Proof.Machine

open Sys2Proof.Safety

/-- Accepting a byte leaves the TX side, CHK_EN, TX_TOOBIG and the ports alone (60_exceptions.md R94). -/
theorem acceptByte_frame (b : Byte) (s : State) :
    SameTx s (acceptByte b s) ∧ (acceptByte b s).txOut = s.txOut ∧
      (acceptByte b s).chkEn = s.chkEn ∧ (acceptByte b s).txToobig = s.txToobig ∧
      (acceptByte b s).responses = s.responses ∧ (acceptByte b s).pending = s.pending := by
  unfold acceptByte
  split
  · unfold acceptHunt; split <;> simp [SameTx]
  · simp [SameTx, acceptSop2]
  · simp [SameTx, acceptMrsp]
  · simp [SameTx, acceptSeq]
  · simp [SameTx, acceptDlen]
  · simp [SameTx, acceptData]
  · rcases acceptChk_cases b s with ⟨_, e⟩ | ⟨_, _, e⟩ <;> simp [SameTx, e]

/-- Before the CHK byte nothing is delivered, dropped or flagged (41_rx_deframer.md R70, R71). -/
theorem acceptByte_beforeChk (b : Byte) (s : State) (h : s.rxSt ≠ .chk) :
    SameOut s (acceptByte b s) ∧ (acceptByte b s).rxBadchk = s.rxBadchk ∧
      (acceptByte b s).rxDropCnt = s.rxDropCnt := by
  unfold acceptByte
  split
  · unfold acceptHunt; split <;> simp [SameOut]
  · simp [SameOut, acceptSop2]
  · simp [SameOut, acceptMrsp]
  · simp [SameOut, acceptSeq]
  · simp [SameOut, acceptDlen]
  · simp [SameOut, acceptData]
  · contradiction

/-- Moving `tx_idx` on leaves the RX side, the control registers, the ports and `tx_buf` alone (R67, R94). -/
theorem advanceTx_frame (s : State) :
    SameRx s (advanceTx s) ∧ SameOut s (advanceTx s) ∧ SameCsr s (advanceTx s) ∧
      (advanceTx s).txOut = s.txOut ∧ (advanceTx s).responses = s.responses ∧
      (advanceTx s).pending = s.pending ∧ (advanceTx s).txBuf = s.txBuf := by
  unfold advanceTx
  split <;> simp [SameRx, SameOut, SameCsr]

/-- A run goes through its first part, then its second. -/
theorem runEnabled_append (a b : List Instr) (s : State) :
    runEnabled (a ++ b) s = (runEnabled a s).bind (runEnabled b) := by
  induction a generalizing s with
  | nil => rfl
  | cons i is ih =>
    simp only [List.cons_append, runEnabled]
    split
    · rfl
    · split
      · exact ih _
      · rfl
      · rfl

/-- Everything an operation can do when it answers a next state. -/
theorem exec_cases {i : Instr} {s t : State} (h : exec i s = .next t) :
    (∃ r, i = .txSubmit r ∧
      ((255 < r.data.length ∧
        t = ({ s with txToobig := true } : State).addResponse (.payloadTooLarge r.data.length)) ∨
       (r.data.length ≤ 255 ∧ s.txBusy = true ∧ t = s) ∨
       (r.data.length ≤ 255 ∧ s.txBusy = false ∧ t = (loadFrame r s).addResponse (.ok .none)))) ∨
    (i = .txEmit ∧
      ((s.txBusy = false ∧ t = s) ∨
       (s.txBusy = true ∧ ∃ b, s.txBuf[s.txIdx.toNat]? = some b ∧ t = (advanceTx s).emit b))) ∨
    (∃ b, i = .rxByte b ∧
      ((s.rxSt = .chk ∧ s.outValid = true ∧ t = s) ∨
       (¬ (s.rxSt = .chk ∧ s.outValid = true) ∧ t = acceptByte b s))) ∨
    (i = .rxPop ∧
      ((s.outValid = false ∧ t = s) ∨
       (s.outValid = true ∧
         t = ({ s with outValid := false } : State).addResponse (.ok (.frame s.outFrame))))) ∨
    (∃ buf r, i = .decode buf ∧ t = s.addResponse r ∧
      (r = .malformedFrame buf.length ∧ parseFrame buf = none ∨
        ∃ f, r = .ok (.frame f) ∧ parseFrame buf = some f)) ∨
    (((∃ f n st, i = .extractInt f n st) ∨ (∃ f st c, i = .extractStr f st c) ∨ ∃ x, i = .csrRd x) ∧
      ∃ v, t = s.addResponse (.ok v)) ∨
    (∃ x v, i = .csrWr x v ∧ t = (writeCsr x v s).addResponse (.ok .none)) ∨
    (i = .reset ∧ t = (clearState s).addResponse (.ok .none)) := by
  cases i with
  | txSubmit r => exact .inl ⟨r, rfl, execTxSubmit_cases h⟩
  | txEmit => exact .inr (.inl ⟨rfl, execTxEmit_cases h⟩)
  | rxByte b =>
    refine .inr (.inr (.inl ⟨b, rfl, ?_⟩))
    rcases execRxByte_cases b s with ⟨h1, h2, h'⟩ | ⟨h1, h'⟩
    · rw [exec, h'] at h
      cases h
      exact .inl ⟨h1, h2, rfl⟩
    · rw [exec, h'] at h
      cases h
      exact .inr ⟨h1, rfl⟩
  | rxPop => exact .inr (.inr (.inr (.inl ⟨rfl, execRxPop_cases h⟩)))
  | decode buf =>
    obtain ⟨r, h', hr⟩ := execDecode_eq buf s
    rw [exec, h'] at h
    cases h
    exact .inr (.inr (.inr (.inr (.inl ⟨buf, r, rfl, rfl, hr⟩))))
  | extractInt f n st =>
    exact .inr (.inr (.inr (.inr (.inr (.inl
      ⟨.inl ⟨_, _, _, rfl⟩, _, (execExtractInt_cases h).2.2⟩)))))
  | extractStr f st c =>
    exact .inr (.inr (.inr (.inr (.inr (.inl
      ⟨.inr (.inl ⟨_, _, _, rfl⟩), _, (execExtractStr_cases h).2⟩)))))
  | csrRd x =>
    rw [exec, execCsrRd_eq] at h
    cases h
    exact .inr (.inr (.inr (.inr (.inr (.inl ⟨.inr (.inr ⟨_, rfl⟩), _, rfl⟩)))))
  | csrWr x v =>
    rw [exec, execCsrWr_eq] at h
    cases h
    exact .inr (.inr (.inr (.inr (.inr (.inr (.inl ⟨_, _, rfl, rfl⟩))))))
  | reset =>
    rw [exec, execReset_eq] at h
    cases h
    exact .inr (.inr (.inr (.inr (.inr (.inr (.inr ⟨rfl, rfl⟩))))))

end Sys2Proof.Machine
end

