-- ==== Sys2Proof/Laws/PerInstr.lean ====
section
/-! SUPPORT. Per-operation lemmas: family RoundTrip, an encoded operation decodes to itself (30_encoding.md R56). -/

namespace Sys2Proof.Laws.RoundTrip

/-- Decoding the encoding of an operation gives the operation. -/
def Statement (i : Instr) : Prop :=
  decodeOp (encodeOp i) = .ok i

theorem txSubmit (r : TxRequest) : Statement (.txSubmit r) := rfl

theorem txEmit : Statement .txEmit := rfl

theorem rxByte (b : Byte) : Statement (.rxByte b) := rfl

theorem rxPop : Statement .rxPop := rfl

theorem decode (buf : List Byte) : Statement (.decode buf) := rfl

theorem extractInt (f : RxFrame) (nbytes : BitVec 4) (start : BitVec 16) :
    Statement (.extractInt f nbytes start) := rfl

theorem extractStr (f : RxFrame) (start count : BitVec 16) :
    Statement (.extractStr f start count) := rfl

theorem csrRd (idx : BitVec 8) : Statement (.csrRd idx) := rfl

theorem csrWr (idx : BitVec 8) (val : Word32) : Statement (.csrWr idx val) := rfl

theorem reset : Statement .reset := rfl

end Sys2Proof.Laws.RoundTrip
end

