-- ==== Sys2Proof/Machine/Assembler.lean ====
section
/-! DEFINITION. The text form of operations, one per line (30_encoding.md R61): mnemonic first, operands as
`name=value`, numbers in hexadecimal or decimal, lists in brackets. The syntax is only a way of writing programs: no
behaviour of FRM rests on it. -/

namespace Sys2Proof.Machine

/-- The mnemonics of R56. -/
def mnemonic : Instr → String
  | .txSubmit _ => "TX_SUBMIT"
  | .txEmit => "TX_EMIT"
  | .rxByte _ => "RX_BYTE"
  | .rxPop => "RX_POP"
  | .decode _ => "DECODE"
  | .extractInt _ _ _ => "EXTRACT_INT"
  | .extractStr _ _ _ => "EXTRACT_STR"
  | .csrRd _ => "CSR_RD"
  | .csrWr _ _ => "CSR_WR"
  | .reset => "RESET"

/-- One hexadecimal digit. -/
def hexDigit (n : Nat) : Char :=
  if n < 10 then Char.ofNat (48 + n) else Char.ofNat (55 + n)

/-- The low `k` hexadecimal digits of `n`, most significant first. -/
def hexDigits : Nat → Nat → List Char
  | 0, _ => []
  | k + 1, n => hexDigits k (n / 16) ++ [hexDigit (n % 16)]

/-- A number in hexadecimal, with `k` digits. -/
def hexText (k n : Nat) : String :=
  "0x" ++ String.ofList (hexDigits k n)

/-- A list of bytes in brackets. -/
def bytesText (l : List Byte) : String :=
  "[" ++ String.intercalate "," (l.map (fun b => hexText 2 b.toNat)) ++ "]"

/-- An operation as a line of text. A frame operand is written by the name `f` an earlier line gave it (R61). -/
def operationText (f : String) (i : Instr) : String :=
  mnemonic i ++
    match i with
    | .txSubmit r =>
      " flags=" ++ hexText 2 r.flags.toNat ++ " did=" ++ hexText 2 r.did.toNat ++
        " cid=" ++ hexText 2 r.cid.toNat ++ " seq=" ++ hexText 2 r.seq.toNat ++
        " data=" ++ bytesText r.data
    | .txEmit => ""
    | .rxByte b => " " ++ hexText 2 b.toNat
    | .rxPop => ""
    | .decode buf => " buf=" ++ bytesText buf
    | .extractInt _ nbytes start =>
      " f=" ++ f ++ " nbytes=" ++ hexText 1 nbytes.toNat ++ " start=" ++ hexText 4 start.toNat
    | .extractStr _ start count =>
      " f=" ++ f ++ " start=" ++ hexText 4 start.toNat ++ " count=" ++ hexText 4 count.toNat
    | .csrRd idx => " idx=" ++ hexText 2 idx.toNat
    | .csrWr idx val => " idx=" ++ hexText 2 idx.toNat ++ " val=" ++ hexText 8 val.toNat
    | .reset => ""

/-- A HOST operation whose value later lines name `v` (R61). -/
def namedText (v f : String) (i : Instr) : String :=
  v ++ " <- " ++ operationText f i

/-- A TX_EMIT step with the byte it produced (R61). -/
def emittedText (b : Byte) : String :=
  mnemonic .txEmit ++ " -> " ++ hexText 2 b.toNat

end Sys2Proof.Machine
end

