-- ==== Sys2Proof/Tests/Slice0.lean ====
section
/-! SUPPORT. Tests: operations written out by hand decode; single operations give the results of the vectors of
95_test_vectors.md (named by their ids); ill-formed operands are refused; and every statement's hypotheses are met. -/

namespace Sys2Proof.Tests

open Sys2Proof Sys2Proof.Machine Sys2Proof.Safety

/-! ## Decoding: an operation of every row, written out from 30_encoding.md R56 and 95_test_vectors.md section 3 -/

theorem test_decode_txSubmit : decodeOp ⟨0x1#4,
    [.u8 0x03#8, .u8 0x02#8, .u8 0x11#8, .u8 0xFF#8, .bytes [0x01#8, 0x02#8, 0x03#8]]⟩ =
      .ok (.txSubmit ⟨0x03#8, 0x02#8, 0x11#8, 0xFF#8, [0x01#8, 0x02#8, 0x03#8]⟩) := by rfl

theorem test_decode_txEmit : decodeOp ⟨0x2#4, []⟩ = .ok .txEmit := by rfl

theorem test_decode_rxByte : decodeOp ⟨0x3#4, [.u8 0x4B#8]⟩ = .ok (.rxByte 0x4B#8) := by rfl

theorem test_decode_rxPop : decodeOp ⟨0x4#4, []⟩ = .ok .rxPop := by rfl

theorem test_decode_decode : decodeOp ⟨0x5#4, [.bytes [0xFF#8, 0x00#8]]⟩ =
    .ok (.decode [0xFF#8, 0x00#8]) := by rfl

/-- Frame A of 95_test_vectors.md section 2.4: dlen 2, data 27 10. -/
def frameA : RxFrame := ⟨0xFF#8, 0x00#8, 0x01#8, 0x02#8, [0x27#8, 0x10#8], false, 0#8, false⟩

/-- Frame B of section 2.4. -/
def frameB : RxFrame :=
  ⟨0xFF#8, 0x00#8, 0x01#8, 0x05#8, [0x12#8, 0x34#8, 0x56#8, 0x78#8, 0x9A#8], false, 0#8, false⟩

/-- A frame that breaks `len(data) = dlen`. -/
def badFrame : RxFrame := ⟨0xFF#8, 0x00#8, 0x01#8, 0x03#8, [0x27#8, 0x10#8], false, 0#8, false⟩

theorem test_decode_extractInt : decodeOp ⟨0x6#4, [.frame frameA, .u4 0x2#4, .u16 0x0001#16]⟩ =
    .ok (.extractInt frameA 0x2#4 0x0001#16) := by rfl

theorem test_decode_extractStr :
    decodeOp ⟨0x7#4, [.frame frameA, .u16 0x0001#16, .u16 0x0004#16]⟩ =
      .ok (.extractStr frameA 0x0001#16 0x0004#16) := by rfl

theorem test_decode_csrRd : decodeOp ⟨0x8#4, [.u8 0x03#8]⟩ = .ok (.csrRd 0x03#8) := by rfl

theorem test_decode_csrWr : decodeOp ⟨0x9#4, [.u8 0x01#8, .u32 0x00000018#32]⟩ =
    .ok (.csrWr 0x01#8 0x00000018#32) := by rfl

theorem test_decode_reset : decodeOp ⟨0xA#4, []⟩ = .ok .reset := by rfl

/-- R59: the reserved opcodes, and no others, have no operation. -/
theorem test_reserved_opcodes : ∀ op : BitVec 4,
    opNameOf op = none ↔ op = 0x0#4 ∨ op = 0xB#4 ∨ op = 0xC#4 ∨ op = 0xD#4 ∨ op = 0xE#4 ∨
      op = 0xF#4 := by decide

/-- Log 10: an operand of another width, a missing and a spare operand are refused. -/
theorem test_operand_shape :
    decodeOp ⟨0x8#4, [.u16 0x0001#16]⟩ = .error (.operandShape 0x8#4) ∧
    decodeOp ⟨0x3#4, []⟩ = .error (.operandShape 0x3#4) ∧
    decodeOp ⟨0xA#4, [.u8 0#8]⟩ = .error (.operandShape 0xA#4) := ⟨rfl, rfl, rfl⟩

/-- The opcode table's words, 8 bits with the opcode in bits 3 to 0. -/
theorem test_table_words : (List.range 16).map (fun w => (decodeTableWord 8 w).map mnemonic) =
    [none, some "TX_SUBMIT", some "TX_EMIT", some "RX_BYTE", some "RX_POP", some "DECODE",
      some "EXTRACT_INT", some "EXTRACT_STR", some "CSR_RD", some "CSR_WR", some "RESET",
      none, none, none, none, none] := by decide

/-! ## WellFormed: each check refuses an ill-formed term -/

theorem test_wellFormed_extractInt_frame :
    (Instr.extractInt badFrame 2#4 0#16).wellFormed = false := by decide

theorem test_wellFormed_extractInt_nbytes :
    (Instr.extractInt frameA 0#4 0#16).wellFormed = false ∧
    (Instr.extractInt frameA 9#4 0#16).wellFormed = false ∧
    (Instr.extractInt frameA 15#4 0#16).wellFormed = false ∧
    (Instr.extractInt frameA 1#4 0#16).wellFormed = true ∧
    (Instr.extractInt frameA 8#4 0#16).wellFormed = true := by decide

theorem test_wellFormed_extractStr_frame :
    (Instr.extractStr badFrame 0#16 1#16).wellFormed = false := by decide

/-! ## The text form (R61, and 95_test_vectors.md section 3) -/

theorem test_text_csrWr : operationText "" (.csrWr 0x00#8 0x00000001#32) =
    "CSR_WR idx=0x00 val=0x00000001" := by decide

theorem test_text_txSubmit :
    operationText "" (.txSubmit ⟨0x01#8, 0x00#8, 0x01#8, 0x52#8, [0xFF#8]⟩) =
      "TX_SUBMIT flags=0x01 did=0x00 cid=0x01 seq=0x52 data=[0xFF]" := by decide

/-! ## Single operations -/

/-- The next state of an answer. -/
def nextOf : Result → Option State
  | .next t => some t
  | .fault _ => none
  | .refused _ => none

/-- The last response of an answer. -/
def answer (r : Result) : Option Response :=
  (nextOf r).bind (·.responses.getLast?)

/-- The request of vector T-2. -/
def requestT2 : TxRequest := ⟨0x01#8, 0x02#8, 0x03#8, 0x00#8, []⟩

/-- A request with `n` payload bytes of one value. -/
def requestOf (n : Nat) (b : Byte) : TxRequest := ⟨0x01#8, 0x00#8, 0x00#8, 0x00#8, List.replicate n b⟩

theorem requestOf_length (n : Nat) (b : Byte) : (requestOf n b).data.length = n :=
  List.length_replicate

/-- An oversized request is answered at once. -/
theorem requestOf_tooLarge {n : Nat} (b : Byte) (h : 255 < n) (s : State) :
    exec (.txSubmit (requestOf n b)) s =
      .next ({ s with txToobig := true }.addResponse (.payloadTooLarge n)) := by
  have hl := (tooLarge_iff (requestOf n b)).2 (by rw [requestOf_length]; exact h)
  rw [exec, execTxSubmit, if_pos hl, requestOf_length, raiseError]

/-- T-2 in flight, with `k` bytes sent. -/
def sending (k : Nat) : State :=
  { State.reset with
    txBusy := true
    txBuf := [0xFF#8, 0x01#8, 0x02#8, 0x03#8, 0x00#8, 0x00#8, 0xF9#8]
    txIdx := BitVec.ofNat 9 k }

/-- Inside the frame FE 00 08 01 AA of vector R-2, in the given state. -/
def receiving (st : RxSt) (pay : List Byte) (sum : Byte) : State :=
  { State.reset with
    rxSt := st, rxSop2 := 0xFE#8, rxMrsp := 0x00#8, rxSeq := 0x08#8, rxDlen := 0x01#8
    rxPay := pay, rxSum := sum }

/-- That frame with only its CHK byte 4B to come. -/
def beforeChk : State := receiving .chk [0xAA#8] 0xB4#8

/-- That frame delivered. -/
def delivered : State :=
  { State.reset with
    outValid := true
    outFrame := ⟨0xFE#8, 0x00#8, 0x08#8, 0x01#8, [0xAA#8], true, 0x4B#8, true⟩ }

/-- That frame before its CHK byte while another one still waits (R-9). -/
def fullBeforeChk : State := { beforeChk with outValid := true, outFrame := delivered.outFrame }

/-- T-1, T-6: the bytes of the accepted frame. -/
theorem test_txSubmit_frame :
    frameBytes ⟨0x01#8, 0x00#8, 0x01#8, 0x52#8, [0xFF#8]⟩ =
      [0xFF#8, 0x01#8, 0x00#8, 0x01#8, 0x52#8, 0x01#8, 0xFF#8, 0xAB#8] ∧
    (nextOf (exec (.txSubmit ⟨0x03#8, 0x02#8, 0x11#8, 0xFF#8, [0x01#8, 0x02#8, 0x03#8]⟩)
        State.reset)).map (·.txBuf) =
      some [0xFF#8, 0x03#8, 0x02#8, 0x11#8, 0xFF#8, 0x03#8, 0x01#8, 0x02#8, 0x03#8, 0xE3#8] := by
  decide

/-- T-7, T-8: the largest payload, where `data_length + 1` wraps. -/
theorem test_checksum_largest :
    ckTx 0x00#8 0x00#8 0x00#8 (List.replicate 255 0x00#8) = 0xFF#8 ∧
    ckTx 0x00#8 0x00#8 0x00#8 (List.replicate 255 0xFF#8) = 0xFE#8 := by decide +kernel

/-- T-9, T-11: too large, though a frame is in flight. -/
theorem test_txSubmit_tooLarge :
    answer (exec (.txSubmit (requestOf 256 0x00#8)) (sending 3)) = some (.payloadTooLarge 256) := by
  rw [requestOf_tooLarge 0x00#8 (by decide)]
  rfl

/-- T-13: the last byte ends the frame. -/
theorem test_txEmit_last :
    (nextOf (exec .txEmit (sending 6))).map (fun t => (t.txOut, t.txBusy, t.txIdx)) =
      some ([0xF9#8], false, 0#9) := by decide

/-- T-13: an earlier byte. -/
theorem test_txEmit_next :
    (nextOf (exec .txEmit (sending 2))).map (fun t => (t.txOut, t.txBusy, t.txIdx)) =
      some ([0x02#8], true, 3#9) := by decide

/-- R-2: the CHK byte 4B delivers the frame. -/
theorem test_rxByte_chk :
    (nextOf (exec (.rxByte 0x4B#8) beforeChk)).map (fun t => (t.outValid, t.outFrame, t.rxSt)) =
      some (true, ⟨0xFE#8, 0x00#8, 0x08#8, 0x01#8, [0xAA#8], true, 0x4B#8, true⟩, .hunt) := by
  decide

/-- K-11: the noise counter wraps. -/
theorem test_rxByte_noise_wraps :
    (nextOf (exec (.rxByte 0x00#8) { State.reset with rxNoiseCnt := 0xFFFFFFFF#32 })).map
      (·.rxNoiseCnt) = some 0#32 := by decide

theorem test_rxPop :
    answer (exec .rxPop delivered) = some (.ok (.frame delivered.outFrame)) ∧
    (nextOf (exec .rxPop delivered)).map (·.outValid) = some false := by decide

/-- D-8, whose byte 0 is not FF and which has bytes past its CHK. -/
theorem test_decode_trailing :
    answer (exec (.decode [0x00#8, 0xFF#8, 0x00#8, 0x01#8, 0x00#8, 0xF2#8, 0x99#8, 0x99#8])
        State.reset) =
      some (.ok (.frame ⟨0xFF#8, 0x00#8, 0x01#8, 0x00#8, [], true, 0xF2#8, false⟩)) := by decide

/-- D-7: fewer payload bytes than DLEN says. -/
theorem test_decode_malformed :
    answer (exec (.decode [0xFF#8, 0xFF#8, 0x00#8, 0x01#8, 0x03#8, 0x27#8, 0x10#8]) State.reset) =
      some (.malformedFrame 7) := by decide

/-- X-3, X-10: a short window is followed by one zero byte. -/
theorem test_extractInt_short :
    answer (exec (.extractInt frameA 4#4 0#16) State.reset) = some (.ok (.int 0x271000#64)) ∧
    answer (exec (.extractInt frameB 8#4 0#16) State.reset) =
      some (.ok (.int 0x123456789A00#64)) := by decide

/-- X-8: a full window. -/
theorem test_extractInt_full :
    answer (exec (.extractInt frameB 4#4 1#16) State.reset) = some (.ok (.int 0x3456789A#64)) := by
  decide

/-- S-2, S-4. -/
theorem test_extractStr :
    answer (exec (.extractStr frameA 1#16 5#16) State.reset) = some (.ok (.bytes [0x10#8])) ∧
    answer (exec (.extractStr frameA 3#16 1#16) State.reset) = some (.ok (.bytes [])) := by decide

/-- K-8, K-10. -/
theorem test_csrRd :
    answer (exec (.csrRd 0x01#8) (sending 0)) = some (.ok (.word 0x00000002#32)) ∧
    answer (exec (.csrRd 0xFF#8) (sending 0)) = some (.ok (.word 0#32)) := by decide

/-- K-2. -/
theorem test_csrWr_ctrl :
    (nextOf (exec (.csrWr 0x00#8 0xFFFFFFFF#32) State.reset)).map ctrlWord = some 1#32 := by decide

/-- K-5: bit 3 not written with 1 stays. -/
theorem test_csrWr_status :
    (nextOf (exec (.csrWr 0x01#8 0xFFFFFFF7#32)
      { State.reset with rxBadchk := true, txToobig := true })).map statusWord =
        some 0x00000008#32 := by decide

/-- K-12, K-13. -/
theorem test_reset :
    (nextOf (exec .reset fullBeforeChk)).map (fun t => (t.outValid, t.rxSt, t.rxPay)) =
      some (false, .hunt, []) ∧
    (nextOf (exec .reset (sending 3))).map (fun t => (t.txBusy, t.txBuf, t.txIdx)) =
      some (false, [], 0#9) := ⟨rfl, rfl⟩

/-- The very next step runs a placed operation. -/
theorem test_withFetchWord :
    step (State.reset.withFetchWord 8 0x8) = .next (State.reset.addResponse (.ok (.word 0#32))) ∧
    step (State.reset.withFetchWord 8 0xB) = .fault (.illegalOp (.opcode 0xB#4)) := ⟨rfl, rfl⟩

/-! ## Every statement's hypotheses are met -/

theorem witness_DecoderInvertsEncoder :
    decodeOp ⟨0x9#4, [.u8 0x01#8, .u32 0x00000018#32]⟩ = .ok .statusClr := rfl

theorem witness_ReservedOpcodeFaults :
    ((0x0#4).toNat = 0 ∧ 0xB ≤ (0xB#4).toNat ∧ 0xB ≤ (0xF#4).toNat) ∧
    (State.reset.setPending [⟨0xB#4, [.u8 1#8]⟩]).pending = ⟨0xB#4, [.u8 1#8]⟩ :: [] := by decide

theorem witness_StepRunsTheDecodedOperation :
    (State.reset.setPending [⟨0x8#4, [.u8 0x01#8]⟩]).pending = ⟨0x8#4, [.u8 0x01#8]⟩ :: [] ∧
    decodeOp ⟨0x8#4, [.u8 0x01#8]⟩ = .ok (.csrRd 0x01#8) ∧
    held (.csrRd 0x01#8) (State.reset.setPending [⟨0x8#4, [.u8 0x01#8]⟩]) = false :=
  ⟨rfl, rfl, rfl⟩

/-- Another agent's operation, and RESET, behind a held one; the general statement is applied to both. -/
theorem witness_StepPassesOverHeldOperations :
    (∀ u ∈ [encodeOp .txEmit], ∃ j, decodeOp u = .ok j ∧ held j State.reset = true ∧
      (agentOf j ≠ agentOf (.csrRd 0#8) ∨ Instr.csrRd 0#8 = .reset)) ∧
    (∀ u ∈ [encodeOp .rxPop], ∃ j, decodeOp u = .ok j ∧ held j State.reset = true ∧
      (agentOf j ≠ agentOf .reset ∨ Instr.reset = .reset)) ∧
    held (.csrRd 0#8) State.reset = false ∧ held .reset State.reset = false := by
  refine ⟨?_, ?_, rfl, rfl⟩
  · intro u hu
    rw [List.mem_singleton] at hu
    exact ⟨.txEmit, hu ▸ rfl, rfl, .inl (by decide)⟩
  · intro u hu
    rw [List.mem_singleton] at hu
    exact ⟨.rxPop, hu ▸ rfl, rfl, .inr rfl⟩

/-- A held RX_POP with a held operation of TXS, an enabled one of HOST and a reserved opcode behind it. -/
def waiting : State :=
  State.reset.setPending
    [encodeOp .rxPop, encodeOp .txEmit, encodeOp (.csrRd 0#8), ⟨0xB#4, []⟩]

theorem waiting_waits (before : List Transaction) (t : Transaction) (later : List Transaction)
    (h : waiting.pending = before ++ t :: later) :
    (∃ i, decodeOp t = .ok i ∧ held i waiting = true) ∨
    (∃ u ∈ before, ∃ j, decodeOp u = .ok j ∧ held j waiting = true ∧
      ((∃ i, decodeOp t = .ok i ∧ i ≠ .reset ∧ agentOf i = agentOf j) ∨
        ((∃ e, decodeOp t = .error e) ∧ agentOf j = .host))) := by
  have h' : [encodeOp .rxPop, encodeOp .txEmit, encodeOp (.csrRd 0#8), ⟨0xB#4, []⟩] =
      before ++ t :: later := h
  match before with
  | [] => cases h'; exact .inl ⟨.rxPop, rfl, rfl⟩
  | [_] => cases h'; exact .inl ⟨.txEmit, rfl, rfl⟩
  | [_, _] =>
    cases h'
    exact .inr ⟨encodeOp .rxPop, by simp, .rxPop, rfl, rfl, .inl ⟨.csrRd 0#8, rfl, by decide, rfl⟩⟩
  | [_, _, _] =>
    cases h'
    exact .inr ⟨encodeOp .rxPop, by simp, .rxPop, rfl, rfl, .inr ⟨⟨_, rfl⟩, rfl⟩⟩
  | _ :: _ :: _ :: _ :: rest =>
    have hl := congrArg List.length h'
    simp at hl

theorem witness_StepWithNothingEnabledChangesNothing :
    (∀ t ∈ (State.reset.setPending [encodeOp .txEmit]).pending,
      ∃ i, decodeOp t = .ok i ∧ held i (State.reset.setPending [encodeOp .txEmit]) = true) ∧
    (∀ before t later, waiting.pending = before ++ t :: later →
      (∃ i, decodeOp t = .ok i ∧ held i waiting = true) ∨
      (∃ u ∈ before, ∃ j, decodeOp u = .ok j ∧ held j waiting = true ∧
        ((∃ i, decodeOp t = .ok i ∧ i ≠ .reset ∧ agentOf i = agentOf j) ∨
          ((∃ e, decodeOp t = .error e) ∧ agentOf j = .host)))) := by
  refine ⟨?_, waiting_waits⟩
  intro t ht
  have ht' : t ∈ [encodeOp .txEmit] := ht
  rw [List.mem_singleton] at ht'
  exact ⟨.txEmit, ht' ▸ rfl, rfl⟩

theorem witness_EveryEnabledOrderRuns :
    (runEnabled [.txSubmit requestT2, .txEmit, .rxByte 0xFF#8] State.reset).isSome = true := by
  decide

theorem witness_OneResponseForEachHostOperation :
    (nextOf (exec (.csrRd 0#8) State.reset)).isSome = true ∧ agentOf (.csrRd 0#8) = .host ∧
    held (.csrRd 0#8) State.reset = false ∧
    (nextOf (exec (.rxByte 0#8) State.reset)).isSome = true ∧ agentOf (.rxByte 0#8) ≠ .host := by
  decide

theorem witness_WellFormedOperationsNeverStop :
    (Instr.extractInt frameA 8#4 0xFFFF#16).wellFormed = true ∧ TxInv (sending 6) ∧
      TxInv State.reset := by
  unfold TxInv
  decide

theorem witness_ChecksumIsTheSameAtAnyWidth : 8 ≤ 8 ∧ 8 ≤ 32 := by decide

theorem witness_OutboundFrameLayout :
    (requestOf 255 0x00#8).data.length ≤ 255 ∧ requestT2.data.length ≤ 255 ∧
    0 < (requestOf 255 0x00#8).data.length := by
  simp only [requestOf_length]
  decide

theorem witness_OutboundChecksumRoundTrip :
    (frameBytes requestT2)[2]? = some 0x02#8 ∧ (frameBytes requestT2)[3]? = some 0x03#8 ∧
    (frameBytes requestT2)[4]? = some 0x00#8 ∧ (frameBytes requestT2)[5]? = some 0x00#8 := by decide

theorem witness_TxSubmitOutcomes :
    255 < (requestOf 256 0x00#8).data.length ∧ (requestOf 255 0x00#8).data.length ≤ 255 ∧
    (sending 0).txBusy = true ∧ State.reset.txBusy = false := by
  simp only [requestOf_length]
  decide

theorem witness_TxEmitOutcomes :
    State.reset.txBusy = false ∧ (sending 6).txBusy = true ∧
    (sending 6).txBuf[(sending 6).txIdx.toNat]? = some 0xF9#8 ∧
    (sending 6).txIdx.toNat + 1 = (sending 6).txBuf.length ∧
    (sending 5).txBuf[(sending 5).txIdx.toNat]? = some 0x00#8 ∧
    (sending 5).txIdx.toNat + 1 ≠ (sending 5).txBuf.length := by decide

theorem witness_AcceptedFrameLeavesWhole :
    (requestOf 255 0x00#8).data.length ≤ 255 ∧ State.reset.txBusy = false ∧
      262 ≤ 7 + (requestOf 255 0x00#8).data.length := by
  simp only [requestOf_length]
  decide

theorem witness_OutboundStreamIsConcatenation :
    TxInv (sending 6) ∧ Instr.reset ∉ [Instr.txEmit, .txSubmit requestT2, .txEmit] ∧
    (runEnabled [.txEmit, .txSubmit requestT2, .txEmit] (sending 6)).isSome = true := by
  unfold TxInv
  decide

theorem witness_HuntFindsMarkerOrCountsNoise :
    State.reset.rxSt = .hunt ∧ 0xFE#8 ≠ 0xFF#8 ∧ beforeChk.rxSt ≠ .hunt ∧
      (nextOf (exec (.rxByte 0xFF#8) beforeChk)).isSome = true := by decide

theorem witness_ByteIsTheFieldItsPositionNames :
    (receiving .sop2 [] 0#8).rxSt = .sop2 ∧ (receiving .mrsp [] 0#8).rxSt = .mrsp ∧
    (receiving .seq [] 0#8).rxSt = .seq ∧ (receiving .dlen [] 8#8).rxSt = .dlen ∧
    0xFF#8 ≠ 0x00#8 ∧
    (receiving .data [] 0x0A#8).rxPay.length + 1 = (receiving .data [] 0x0A#8).rxDlen.toNat ∧
    ({ receiving .data [] 0x0B#8 with rxDlen := 0xFF#8 } : State).rxPay.length + 1 ≠
      ({ receiving .data [] 0x0B#8 with rxDlen := 0xFF#8 } : State).rxDlen.toNat := by decide

theorem witness_ChkByteVerifiesAndStrips :
    beforeChk.rxSt = .chk ∧ beforeChk.outValid = false ∧ 0x4B#8 = ~~~ beforeChk.rxSum ∧
    0x4C#8 ≠ ~~~ beforeChk.rxSum ∧ beforeChk.chkEn = false ∧
    ({ beforeChk with chkEn := true } : State).chkEn = true := by decide

theorem witness_RxByteHoldsOnlyAtAFullChk :
    (fullBeforeChk.rxSt = .chk ∧ fullBeforeChk.outValid = true) ∧
    ¬ (beforeChk.rxSt = .chk ∧ beforeChk.outValid = true) ∧
    ¬ (delivered.rxSt = .chk ∧ delivered.outValid = true) ∧
    delivered.outValid = true ∧ (nextOf (exec (.rxByte 0xFF#8) delivered)).isSome = true := by decide

theorem witness_RunningSumIsTheInboundChecksum : RxInv beforeChk ∧ beforeChk.rxSt = .chk := by
  unfold RxInv
  decide

theorem witness_InboundFrameIsConsumedWhole :
    (requestOf 255 0x00#8).data.length ≤ 255 ∧ State.reset.rxSt = .hunt ∧
    State.reset.outValid = false ∧
    (0x4B#8 == ckRx 0x00#8 0x08#8 [0xAA#8]) = true ∧
    (0x00#8 == ckRx 0x00#8 0x08#8 [0xAA#8]) = false ∧
    ({ State.reset with chkEn := true } : State).chkEn = true := by
  simp only [requestOf_length]
  decide

/-- The buffer of vector D-5: a whole frame. -/
def bufferD5 : List Byte :=
  [0xFF#8, 0xFF#8, 0x00#8, 0x01#8, 0x02#8, 0x27#8, 0x10#8, 0xC4#8]

theorem witness_DeframerAgreesWithDecode :
    bufferD5[0]? = some 0xFF#8 ∧ bufferD5[4]? = some 0x02#8 ∧
    6 + (0x02#8).toNat ≤ bufferD5.length ∧ State.reset.rxSt = .hunt ∧
    State.reset.outValid = false ∧ State.reset.chkEn = false ∧
    bufferD5[5 + (0x02#8).toNat]? =
      some (ckRx (bufferD5.getD 2 0#8) (bufferD5.getD 3 0#8)
        ((bufferD5.drop 5).take (0x02#8).toNat)) := by decide

theorem witness_DeliveredFrameIsNeverOverwritten :
    fullBeforeChk.outValid = true ∧ Instr.rxByte 0x4B#8 ≠ .rxPop ∧ Instr.rxByte 0x4B#8 ≠ .reset ∧
    (nextOf (exec (.rxByte 0x4B#8) fullBeforeChk)).isSome = true := by decide

theorem witness_FramesArePoppedInArrivalOrder :
    Instr.reset ∉ [Instr.rxByte 0x4B#8, .rxPop] ∧
    (runEnabled [.rxByte 0x4B#8, .rxPop] beforeChk).isSome = true := by decide

theorem witness_RxPopOutcomes : State.reset.outValid = false ∧ delivered.outValid = true := by decide

theorem witness_DecodeOutcomes :
    (bufferD5.take 4).length < 5 ∧
    (bufferD5[1]? = some 0xFF#8 ∧ bufferD5[2]? = some 0x00#8 ∧ bufferD5[3]? = some 0x01#8) ∧
    (bufferD5.take 6).length < 5 + (0x02#8).toNat ∧
    (bufferD5.take 7).length = 5 + (0x02#8).toNat ∧
    bufferD5[5 + (0x02#8).toNat]? = some 0xC4#8 := by decide

theorem witness_ValidationDeliversOnlyMatchingFrames :
    ({ beforeChk with chkEn := true } : State).chkEn = true ∧
    (({ beforeChk with chkEn := true } : State).outValid = true →
      ({ beforeChk with chkEn := true } : State).outFrame.chkOk = true) ∧
    (nextOf (exec (.rxByte 0x4B#8) { beforeChk with chkEn := true })).map (·.outValid) =
      some true := by decide

theorem witness_ChkEnGovernsTheFrameInProgress :
    beforeChk.rxSt = .chk ∧ beforeChk.outValid = false ∧ 0x00#8 ≠ ~~~ beforeChk.rxSum ∧
    (0x00000001#32).getLsbD 0 = true ∧ (0xFFFFFFFE#32).getLsbD 0 = false := by decide

/-- The second and third clauses: a write in state DATA with the last payload byte and a TX_EMIT's TX_SUBMIT between it
and the CHK byte, and a frame with a write at its first, an inner and its last place. -/
theorem witness_ChkEnGovernsTheFrameInProgress_earlier :
    (∀ i ∈ [Instr.txSubmit requestT2, .rxByte 0xAA#8], i ≠ .reset ∧ ∀ v, i ≠ .csrWr 0x00#8 v) ∧
    (runEnabled (.csrWr 0x00#8 1#32 :: [.txSubmit requestT2, .rxByte 0xAA#8])
      (receiving .data [] 0x0A#8)).map (fun u => (u.rxSt, u.outValid, u.rxSum)) =
        some (.chk, false, 0xB4#8) ∧
    (State.reset.rxSt = .hunt ∧ State.reset.outValid = false ∧
      (inboundBody 0xFE#8 0x00#8 0x08#8 [0xAA#8]).length = 6 ∧
      0x00#8 ≠ ckRx 0x00#8 0x08#8 [0xAA#8]) := by
  refine ⟨?_, by decide, by decide⟩
  intro i hi
  simp only [List.mem_cons, List.not_mem_nil, or_false] at hi
  rcases hi with rfl | rfl <;> exact ⟨by simp, by simp⟩

/-- For ExtractIntClosedForm and ExtractIntFitsItsWindow. -/
theorem witness_ExtractInt :
    frameA.data.length = frameA.dlen.toNat ∧ (1 ≤ (1#4).toNat ∧ (1#4).toNat ≤ 8) ∧
    (1 ≤ (8#4).toNat ∧ (8#4).toNat ≤ 8) ∧ frameA.dlen.toNat ≤ (2#16).toNat := by decide

theorem witness_ExtractIntFaultsOutsideItsRange :
    (0#4).toNat = 0 ∧ 9 ≤ (9#4).toNat ∧ 9 ≤ (15#4).toNat := by decide

theorem witness_ExtractStrCopiesTheClampedWindow :
    frameA.data.length = frameA.dlen.toNat ∧ frameA.dlen.toNat < (3#16).toNat ∧
    0 < min (1#16).toNat (frameA.dlen.toNat - (1#16).toNat) := by decide

theorem witness_FrameOutsideItsDomainFaults :
    badFrame.data.length ≠ badFrame.dlen.toNat ∧ 1 ≤ (1#4).toNat ∧ (8#4).toNat ≤ 8 := by decide

theorem witness_CsrReadValues :
    4 ≤ (4#8).toNat ∧ 4 ≤ (0xFF#8).toNat ∧ ¬ 4 ≤ (0x03#8).toNat := by decide

theorem witness_CsrWriteEffects : 2 ≤ (0x02#8).toNat ∧ 2 ≤ (0xFF#8).toNat ∧
    (0x00000018#32).getLsbD 3 = true ∧ (0xFFFFFFF7#32).getLsbD 3 = false := by decide

/-- For PowerOnIsTheResetColumn. -/
theorem witness_reset : (nextOf (exec .reset fullBeforeChk)).isSome = true := rfl

/-- A frame in flight and one waiting at RESET, and operations after it. -/
theorem witness_ResetAbandonsWorkInProgress :
    (nextOf (exec .reset { sending 3 with outValid := true })).isSome = true ∧
    Instr.reset ∉ [Instr.txSubmit requestT2, .txEmit] ∧
    ((nextOf (exec .reset { sending 3 with outValid := true })).bind
      (runEnabled [.txSubmit requestT2, .txEmit])).isSome = true := ⟨rfl, by decide, rfl⟩

theorem witness_ClearThenSetLeavesTheBitSet :
    beforeChk.rxSt = .chk ∧ beforeChk.outValid = false ∧ 0x00#8 ≠ ~~~ beforeChk.rxSum ∧
    255 < (requestOf 256 0x00#8).data.length := by
  simp only [requestOf_length]
  decide

theorem witness_StickyBitsChangeOnlyByTheirEvents :
    (nextOf (exec (.csrWr 0x01#8 0x00000018#32)
      { State.reset with rxBadchk := true, txToobig := true })).map
        (fun t => (t.rxBadchk, t.txToobig)) = some (false, false) ∧
    (nextOf (exec (.rxByte 0x00#8) beforeChk)).map (·.rxBadchk) = some true ∧
    (nextOf (exec (.txSubmit (requestOf 256 0x00#8)) State.reset)).map (·.txToobig) = some true := by
  rw [requestOf_tooLarge 0x00#8 (by decide)]
  decide

theorem witness_DropCounterCountsDiscardedFrames :
    ({ beforeChk with chkEn := true } : State).rxSt = .chk ∧
    (nextOf (exec (.rxByte 0x00#8) { beforeChk with chkEn := true })).map (·.rxDropCnt) =
      some 1#32 ∧ Instr.rxByte 0x00#8 ≠ .reset ∧ 0x00#8 ≠ ~~~ beforeChk.rxSum := by decide

theorem witness_NoiseCounterCountsDiscardedBytes :
    (nextOf (exec (.rxByte 0xFE#8) State.reset)).map (·.rxNoiseCnt) = some 1#32 ∧
    State.reset.rxSt = .hunt ∧ 0xFE#8 ≠ 0xFF#8 := by decide

theorem witness_PseudoOperations : State.reset.txBusy = false := rfl

theorem witness_ErrorsAndTheirCauses :
    (nextOf (exec (.txSubmit (requestOf 256 0x00#8)) State.reset)).map (·.responses) =
      some (State.reset.responses ++ [.payloadTooLarge 256]) ∧
    (nextOf (exec (.decode []) State.reset)).map (·.responses) =
      some (State.reset.responses ++ [.malformedFrame 0]) ∧
    exec (.extractInt frameA 9#4 0#16) State.reset = .fault (.illegalOp (.nbytes 9#4)) := by
  rw [requestOf_tooLarge 0x00#8 (by decide)]
  exact ⟨rfl, rfl, rfl⟩

/-- ILLEGAL_OP and a frame outside its domain, each taken past a held TX_EMIT, and the run that goes on (with
ErrorsAndTheirCauses' two states). -/
theorem witness_ErrorsArePrecise :
    step (State.reset.setPending [encodeOp .txEmit, ⟨0xF#4, []⟩]) =
      .fault (.illegalOp (.opcode 0xF#4)) ∧
    (afterFault (.illegalOp (.opcode 0xF#4))
      (State.reset.setPending [encodeOp .txEmit, ⟨0xF#4, []⟩])).pending = [encodeOp .txEmit] ∧
    step (State.reset.setPending [encodeOp .txEmit, encodeOp (.extractStr badFrame 0#16 1#16)]) =
      .fault .operandOutsideDomain ∧
    (afterFault .operandOutsideDomain
      (State.reset.setPending
        [encodeOp .txEmit, encodeOp (.extractStr badFrame 0#16 1#16)])).responses =
          [.operandOutsideDomain] :=
  ⟨rfl, rfl, rfl, rfl⟩

theorem witness_ReadsHaveNoSideEffects :
    (nextOf (exec (.decode bufferD5) delivered)).isSome = true ∧
    (nextOf (exec (.csrRd 0x01#8) delivered)).isSome = true ∧
    delivered.outValid = true ∧ (nextOf (exec .rxPop delivered)).isSome = true := by decide

theorem witness_ElementsAreWrittenOnlyByTheirOperations :
    (nextOf (exec (.csrWr 0x00#8 1#32) State.reset)).map (·.chkEn) = some true ∧
    Instr.csrWr 0x00#8 1#32 ≠ .reset ∧
    (nextOf (exec .txEmit (sending 6))).map (·.txBusy) = some false := by decide

/-- Two states that share the TX side, and two that share the RX side, and the steps of both. -/
theorem witness_PortStepsStayOnTheirSide :
    SameTx (sending 2) { sending 2 with rxSt := .dlen, chkEn := true } ∧
    (nextOf (exec .txEmit { sending 2 with rxSt := .dlen, chkEn := true })).isSome = true ∧
    SameRx beforeChk { beforeChk with txBusy := true, rxNoiseCnt := 7#32 } ∧
    SameOut beforeChk { beforeChk with txBusy := true, rxNoiseCnt := 7#32 } ∧
    (nextOf (exec (.rxByte 0x00#8) beforeChk)).isSome = true := by
  refine ⟨⟨rfl, rfl, rfl⟩, by decide, ⟨rfl, rfl, rfl, rfl, rfl, rfl, rfl⟩, ⟨rfl, rfl⟩, by decide⟩

theorem witness_TransmitAndReceiveCommute :
    (nextOf (exec .txEmit (sending 6))).isSome = true ∧
    (nextOf (exec (.rxByte 0xFF#8) (sending 6))).isSome = true := by decide

/-- Away from reset: a frame in flight, a payload byte in, a frame waiting. -/
def working : State :=
  { sending 3 with
    rxSt := .data, rxMrsp := 0x00#8, rxSeq := 0x08#8, rxDlen := 0x02#8
    rxPay := [0xAA#8], rxSum := 0xB5#8, outValid := true, outFrame := delivered.outFrame
    pending := [encodeOp (.rxByte 0x01#8), encodeOp (.extractInt frameA 0#4 0#16)] }

theorem working_inv : Inv working := by
  refine ⟨⟨by decide, by decide⟩, fun _ => ⟨requestT2, by decide, by decide⟩, ?_, ?_⟩
  · exact ⟨by decide, by decide, by decide, fun _ => by decide, by decide⟩
  · exact fun _ => by decide

theorem witness_StepKeepsTheInvariant :
    Inv working ∧ (nextOf (step working)).map (·.rxSt) = some .chk :=
  ⟨working_inv, by decide⟩

theorem witness_StepFaultsOnlyOutsideTheDomain :
    Inv (working.setPending [encodeOp (.extractInt frameA 0#4 0#16)]) ∧
    step (working.setPending [encodeOp (.extractInt frameA 0#4 0#16)]) =
      .fault (.illegalOp (.nbytes 0#4)) :=
  ⟨working_inv, rfl⟩

/-- Two states that differ in unwritten registers only, with a step to take. -/
theorem witness_UnwrittenRegistersAreNeverObserved :
    AgreeWhereWritten (State.reset.setPending [encodeOp (.rxByte 0xFF#8)])
      { State.reset.setPending [encodeOp (.rxByte 0xFF#8)] with
        rxSop2 := 0x55#8, rxSum := 0x66#8, txBuf := [0x77#8], outFrame := frameA } := by
  unfold AgreeWhereWritten SameCsr
  decide

end Sys2Proof.Tests
end

/-! SUPPORT. The lemmas behind the scope statements: the decoder and the schedule seen through decoded operations, which
operations wait, and what an operation answers when it is held, inside its domain, or outside it. -/

namespace Sys2Proof

/-! ### The decoder -/

/-- What the decoder reads back from operands is an operation with just these operands and an opcode of that name (R56). -/
theorem operandsOf_eq_some {name : OpName} {operands : List Operand} {i : Instr}
    (h : operandsOf name operands = some i) :
    operandList i = operands ∧ opNameOf (opcodeOf i) = some name := by
  unfold operandsOf at h
  cases name <;>
  · simp only at h
    split at h <;> cases h
    exact ⟨rfl, rfl⟩

/-- No two opcodes have the same operation (R56). -/
theorem opNameOf_injective : ∀ a b : BitVec 4, opNameOf a ≠ none → opNameOf a = opNameOf b → a = b := by
  decide

/-- Only the encoding of an operation decodes to it (R55, R56). -/
theorem encodeOp_of_decodeOp {t : Transaction} {i : Instr} (h : decodeOp t = .ok i) :
    encodeOp i = t := by
  unfold decodeOp at h
  split at h
  · cases h
  · next name hname =>
    split at h
    · cases h
    · next hops =>
      cases h
      obtain ⟨hoperands, hopcode⟩ := operandsOf_eq_some hops
      have hop : opcodeOf i = t.opcode :=
        opNameOf_injective _ _ (by simp [hopcode]) (hopcode.trans hname.symm)
      rw [encodeOp, hoperands, hop]

/-- The encoding of an operation decodes to it (R55, R56). -/
theorem decodeOp_encodeOp (i : Instr) : decodeOp (encodeOp i) = .ok i := by
  cases i <;> rfl

/-- The opcode the decoder rejects as reserved is the transaction's own, and names no operation (R59). -/
theorem decodeOp_reservedOpcode {t : Transaction} {op : BitVec 4}
    (h : decodeOp t = .error (.reservedOpcode op)) : op = t.opcode ∧ opNameOf t.opcode = none := by
  unfold decodeOp at h
  split at h
  · next hname =>
    cases h
    exact ⟨rfl, hname⟩
  · split at h <;> cases h

namespace Machine

open Sys2Proof.Safety

/-! ### Which offered transactions wait -/

theorem isReset_iff {t : Transaction} : isReset t = true ↔ decodeOp t = .ok .reset := by
  constructor
  · intro h
    rw [eq_of_beq h]
    exact decodeOp_encodeOp _
  · intro h
    rw [isReset, encodeOp_of_decodeOp h, beq_self_eq_true]

/-- A transaction that decodes waits if its operation is held, or is not RESET and its agent waits already (R12, R82). -/
theorem mustWait_iff_of_decodes {s : State} {waiting : List Agent} {t : Transaction} {i : Instr}
    (hd : decodeOp t = .ok i) :
    mustWait waiting t s = true ↔ held i s = true ∨ agentOf i ∈ waiting ∧ i ≠ .reset := by
  have hreset : isReset t = false ↔ i ≠ .reset := by
    rw [← Bool.not_eq_true, isReset_iff, hd]
    simp
  simp [mustWait, transactionHeld, transactionAgent, hd, hreset]

/-- A transaction that does not decode waits only behind an operation of HOST (log 15). -/
theorem mustWait_iff_of_error {s : State} {waiting : List Agent} {t : Transaction} {e : DecodeError}
    (hd : decodeOp t = .error e) : mustWait waiting t s = true ↔ .host ∈ waiting := by
  have hreset : isReset t = false := by
    rw [← Bool.not_eq_true, isReset_iff, hd]
    simp
  simp [mustWait, transactionHeld, transactionAgent, hd, hreset]

/-- The step passes over a whole list of transactions each of which must wait behind those before it (log 2). -/
theorem pick_append_of_waits {s : State} {waiting : List Agent} {before : List Transaction}
    (rest : List Transaction)
    (h : ∀ a t b, before = a ++ t :: b →
      mustWait ((a.map transactionAgent).reverse ++ waiting) t s = true) :
    pick s waiting (before ++ rest) =
      (pick s ((before.map transactionAgent).reverse ++ waiting) rest).map
        (fun p => (p.1, before ++ p.2)) := by
  induction before generalizing waiting with
  | nil => simp
  | cons u us ih =>
    have hus : ∀ a t b, us = a ++ t :: b →
        mustWait ((a.map transactionAgent).reverse ++ transactionAgent u :: waiting) t s = true :=
      fun a t b e => by simpa using h (u :: a) t b (by rw [e, List.cons_append])
    have hu : mustWait waiting u s = true := h [] u us rfl
    rw [List.cons_append, pick_waits hu, ih hus, Option.map_map]
    simp [Function.comp_def]

/-! ### Which operation the step takes -/

/-- The step runs the transaction that is picked, if it decodes (R6). -/
theorem step_of_pick {s : State} {t : Transaction} {left : List Transaction} {i : Instr}
    (hp : pick s [] s.pending = some (t, left)) (hd : decodeOp t = .ok i) :
    step s = exec i (s.setPending left) := by
  simp [step, hp, hd]

/-- The step runs an enabled operation behind held ones that do not keep it back (R6, R12, R82; log 2, log 3). -/
theorem step_behind_held {s : State} {before later : List Transaction} {t : Transaction} {i : Instr}
    (hs : s.pending = before ++ t :: later)
    (hbefore : ∀ u ∈ before, ∃ j, decodeOp u = .ok j ∧ held j s = true ∧
      (agentOf j ≠ agentOf i ∨ i = .reset))
    (hd : decodeOp t = .ok i) (hi : held i s = false) :
    step s = exec i (s.setPending (before ++ later)) := by
  have hwait : ∀ a u b, before = a ++ u :: b →
      mustWait ((a.map transactionAgent).reverse ++ []) u s = true := by
    rintro a u b rfl
    obtain ⟨j, hdj, hj, _⟩ := hbefore u (by simp)
    exact mustWait_of_held hdj hj
  have hfree : mustWait ((before.map transactionAgent).reverse ++ []) t s = false := by
    rw [← Bool.not_eq_true, mustWait_iff_of_decodes hd, hi]
    rintro (h | ⟨hmem, hne⟩)
    · cases h
    · simp only [List.append_nil, List.mem_reverse, List.mem_map] at hmem
      obtain ⟨u, hu, hagent⟩ := hmem
      obtain ⟨j, hdj, _, hj⟩ := hbefore u hu
      simp only [transactionAgent, hdj] at hagent
      exact hj.elim (· hagent) hne
  refine step_of_pick ?_ hd
  rw [hs, pick_append_of_waits _ hwait, pick_free hfree]
  rfl

/-- The step runs the oldest offered operation, if it is enabled (R6; log 2). -/
theorem step_of_head {s : State} {t : Transaction} {later : List Transaction} {i : Instr}
    (hs : s.pending = t :: later) (hd : decodeOp t = .ok i) (hi : held i s = false) :
    step s = exec i (s.setPending later) :=
  step_behind_held (before := []) hs (by simp) hd hi

/-- There is no step when every offered transaction waits behind those before it (R6; log 4). -/
theorem step_eq_self_of_waits {s : State}
    (h : ∀ before t later, s.pending = before ++ t :: later →
      mustWait (before.map transactionAgent).reverse t s = true) : step s = .next s := by
  have hp : pick s [] s.pending = none := by
    have := pick_append_of_waits (s := s) (waiting := []) [] (by simpa using h)
    simpa [pick] using this
  simp [step, hp]

/-! ### A hold -/

/-- A held operation answers the state it was given (R6; log 4). -/
theorem exec_of_held {i : Instr} {s : State} (h : held i s = true) : exec i s = .next s := by
  cases i with
  | txSubmit r =>
    have hsize := (tooLarge_eq_false r).2 ((txSubmitHeld_iff r s).1 h).1
    rw [exec, execTxSubmit, hsize, if_neg Bool.false_ne_true]
    exact if_pos h
  | txEmit => exact if_pos h
  | rxByte b => exact if_pos h
  | rxPop => exact if_pos h
  | decode | extractInt | extractStr | csrRd | csrWr | reset => cases h

/-- A byte that is accepted changes `rx_st`, the payload or the noise count (R69, R70, R71). -/
theorem acceptByte_ne (b : Byte) (s : State) : acceptByte b s ≠ s := by
  intro h
  have hst := congrArg State.rxSt h
  cases hs : s.rxSt with
  | hunt =>
    by_cases hb : b = Config.sop1
    · simp [acceptByte, hs, acceptHunt, hb] at hst
    · simpa [acceptByte, hs, acceptHunt, hb] using congrArg State.rxNoiseCnt h
  | data => simpa [acceptByte, hs, acceptData] using congrArg (fun t => t.rxPay.length) h
  | dlen =>
    simp only [acceptByte, hs, acceptDlen] at hst
    split at hst <;> cases hst
  | sop2 | mrsp | seq | chk => simp [acceptByte, hs, acceptSop2, acceptMrsp, acceptSeq, acceptChk] at hst

/-- An answer to HOST leaves a state other than the one before, whatever else the operation wrote. -/
theorem ne_addResponse {s t : State} {r : Response} (h : t.responses = s.responses) :
    s ≠ t.addResponse r := by
  intro e
  simpa [h] using congrArg State.responses e

@[simp] theorem writeCsr_responses (idx : BitVec 8) (val : Word32) (s : State) :
    (writeCsr idx val s).responses = s.responses := by
  rcases writeCsr_cases idx val s with ⟨_, e⟩ | ⟨_, e⟩ | ⟨_, e⟩ <;> rw [e]

/-- Only a held operation answers the state it was given (R6, R10; log 4, log 5). -/
theorem held_of_exec_eq_self {i : Instr} {s : State} (h : exec i s = .next s) : held i s = true := by
  rcases exec_cases h with ⟨r, rfl, hsubmit⟩ | ⟨rfl, hemit⟩ | ⟨b, rfl, hbyte⟩ | ⟨rfl, hpop⟩ |
    ⟨_, _, _, e, _⟩ | ⟨_, _, e⟩ | ⟨x, v, _, e⟩ | ⟨_, e⟩
  · rcases hsubmit with ⟨_, e⟩ | ⟨hsize, hbusy, _⟩ | ⟨_, _, e⟩
    · exact absurd e (ne_addResponse rfl)
    · exact (txSubmitHeld_iff r s).2 ⟨hsize, hbusy⟩
    · exact absurd e (ne_addResponse rfl)
  · rcases hemit with ⟨hidle, _⟩ | ⟨_, b, _, e⟩
    · simp [held, txEmitHeld, hidle]
    · obtain ⟨_, _, _, hout, _⟩ := advanceTx_frame s
      exact absurd e.symm (State.txOut_append_ne s _ b (by simp [hout]))
  · rcases hbyte with ⟨hchk, hfull, _⟩ | ⟨_, e⟩
    · exact (rxByteHeld_iff s).2 ⟨hchk, hfull⟩
    · exact absurd e.symm (acceptByte_ne b s)
  · rcases hpop with ⟨hempty, _⟩ | ⟨_, e⟩
    · simp [held, rxPopHeld, hempty]
    · exact absurd e (ne_addResponse rfl)
  · exact absurd e (ne_addResponse rfl)
  · exact absurd e (ne_addResponse rfl)
  · exact absurd e (ne_addResponse (writeCsr_responses x v s))
  · exact absurd e (ne_addResponse (clearState_responses s))

/-! ### Runs -/

/-- A run of enabled operations begins with one that is enabled and answers a next state. -/
theorem runEnabled_cons_eq_some {i : Instr} {is : List Instr} {s t : State}
    (h : runEnabled (i :: is) s = some t) :
    held i s = false ∧ ∃ u, exec i s = .next u ∧ runEnabled is u = some t := by
  unfold runEnabled at h
  split at h
  · cases h
  · next hi =>
    split at h
    · next u hu => exact ⟨Bool.eq_false_iff.2 hi, u, hu, h⟩
    · cases h
    · cases h

/-- A step that answers a next state leaves the rest of the run to that state. -/
theorem run_succ_of_step {M : Host.Core} {s t : M.State} (h : M.step s = .next t) (k : Nat) :
    M.run (k + 1) s = M.run k t := by
  simp [Host.Core.run, h]

/-- The machine runs the operations offered to it in order, if each is enabled in its turn (R5, R6; log 2). -/
theorem run_of_runEnabled {is : List Instr} {s t : State} (later : List Transaction)
    (h : runEnabled is s = some t) :
    Host.Core.run Sys2Proof.core is.length (s.setPending (is.map encodeOp ++ later)) =
      .next (t.setPending later) := by
  induction is generalizing s with
  | nil =>
    cases h
    rfl
  | cons i is ih =>
    obtain ⟨hi, u, hu, hrest⟩ := runEnabled_cons_eq_some h
    have hstep : Sys2Proof.core.step (s.setPending (encodeOp i :: (is.map encodeOp ++ later))) =
        .next (u.setPending (is.map encodeOp ++ later)) := by
      have := step_of_head (s := s.setPending (encodeOp i :: (is.map encodeOp ++ later))) rfl
        (decodeOp_encodeOp i) (by simpa using hi)
      rwa [State.setPending_setPending, exec_setPending, hu] at this
    exact (run_succ_of_step hstep is.length).trans (ih hrest)

/-! ### Inside and outside the operand domains -/

/-- Under R19's invariant a byte to send is there. -/
theorem execTxEmit_next {s : State} (hinv : TxInv s) : ∃ t, execTxEmit s = .next t := by
  unfold execTxEmit
  split
  · exact ⟨_, rfl⟩
  · next hh =>
    obtain ⟨hbusy, _⟩ := hinv
    obtain ⟨_, _, hidx⟩ := hbusy (by simpa [txEmitHeld] using hh)
    rw [List.getElem?_eq_getElem hidx]
    exact ⟨_, rfl⟩

/-- An operation inside its operand domains answers a next state (R10, R57). -/
theorem exec_next_of_wellFormed {i : Instr} {s : State} (hw : i.wellFormed = true) (hinv : TxInv s) :
    ∃ t, exec i s = .next t := by
  cases i with
  | txSubmit r =>
    rw [exec, execTxSubmit]
    split
    · exact ⟨_, rfl⟩
    · split <;> exact ⟨_, rfl⟩
  | txEmit => exact execTxEmit_next hinv
  | rxByte b => rcases execRxByte_cases b s with ⟨_, _, e⟩ | ⟨_, e⟩ <;> exact ⟨_, e⟩
  | rxPop =>
    rw [exec, execRxPop]
    split <;> exact ⟨_, rfl⟩
  | decode buf =>
    obtain ⟨_, e, _⟩ := execDecode_eq buf s
    exact ⟨_, e⟩
  | extractInt f n start =>
    obtain ⟨hf, hn⟩ := Bool.and_eq_true_iff.1 hw
    rw [exec, execExtractInt, if_pos hn, if_pos hf]
    exact ⟨_, rfl⟩
  | extractStr f start count =>
    have hf : f.wf = true := hw
    rw [exec, execExtractStr, if_pos hf]
    exact ⟨_, rfl⟩
  | csrRd idx => exact ⟨_, execCsrRd_eq idx s⟩
  | csrWr idx val => exact ⟨_, execCsrWr_eq idx val s⟩
  | reset => exact ⟨_, execReset_eq s⟩

/-- EXTRACT_STR of a frame outside its domain faults (log 9). -/
theorem execExtractStr_of_not_wf {f : RxFrame} (hf : f.wf = false) (start count : BitVec 16)
    (s : State) : execExtractStr f start count s = .fault .operandOutsideDomain := by
  simp [execExtractStr, hf]

/-- EXTRACT_INT of a frame outside its domain faults, once `nbytes` is legal (log 9). -/
theorem execExtractInt_of_not_wf {f : RxFrame} {n : BitVec 4} (hn : nbytesLegal n = true)
    (hf : f.wf = false) (start : BitVec 16) (s : State) :
    execExtractInt f n start s = .fault .operandOutsideDomain := by
  simp [execExtractInt, hn, hf]

/-- EXTRACT_INT with an illegal `nbytes` is ILLEGAL_OP, whatever the frame is (R78, R89). -/
theorem execExtractInt_of_not_legal {n : BitVec 4} (hn : nbytesLegal n = false) (f : RxFrame)
    (start : BitVec 16) (s : State) :
    execExtractInt f n start s = .fault (.illegalOp (.nbytes n)) := by
  simp [execExtractInt, hn, illegalOp]

/-- An operation outside its operand domains is one of the two faults of the field reader (R10, R57, R84). -/
theorem exec_fault_of_not_wellFormed {i : Instr} (hw : i.wellFormed = false) (s : State) :
    exec i s = .fault .operandOutsideDomain ∨ ∃ n, exec i s = .fault (.illegalOp (.nbytes n)) := by
  cases i with
  | extractInt f n start =>
    cases hn : nbytesLegal n with
    | false => exact .inr ⟨n, execExtractInt_of_not_legal hn f start s⟩
    | true =>
      have hf : f.wf = false := by simpa [Instr.wellFormed, hn] using hw
      exact .inl (execExtractInt_of_not_wf hn hf start s)
  | extractStr f start count => exact .inl (execExtractStr_of_not_wf hw start count s)
  | txSubmit | txEmit | rxByte | rxPop | decode | csrRd | csrWr | reset => cases hw

/-- Under R19's invariant only an operation outside its operand domains faults, with a fault of the field reader. -/
theorem wellFormed_of_exec_fault {i : Instr} {s : State} {r : Fault} (hinv : TxInv s)
    (h : exec i s = .fault r) :
    i.wellFormed = false ∧ (r = .operandOutsideDomain ∨ ∃ n, r = .illegalOp (.nbytes n)) := by
  have hw : i.wellFormed = false := by
    rw [← Bool.not_eq_true]
    intro hw
    obtain ⟨t, ht⟩ := exec_next_of_wellFormed hw hinv
    rw [ht] at h
    cases h
  refine ⟨hw, ?_⟩
  rcases exec_fault_of_not_wellFormed hw s with e | ⟨n, e⟩
  · rw [e] at h
    cases h
    exact .inl rfl
  · rw [e] at h
    cases h
    exact .inr ⟨n, rfl⟩

/-- What is picked was offered. -/
theorem mem_pending_of_pick {s : State} {t : Transaction} {left : List Transaction}
    (h : pick s [] s.pending = some (t, left)) : t ∈ s.pending := by
  obtain ⟨before, later, e, _⟩ := pick_mem h
  simp [e]

/-! ### The statements -/

/-- Settles O5: the held operations before `t` are passed over, and none of them keeps its agent waiting. -/
theorem stepPassesOverHeldOperations : Obligations.StepPassesOverHeldOperations :=
  fun _ _ _ _ _ hs hbefore hd hi => step_behind_held hs hbefore hd hi

/-- Settles O6: every offered transaction waits, by its own hold or behind its agent's. -/
theorem stepWithNothingEnabledChangesNothing :
    Obligations.StepWithNothingEnabledChangesNothing := by
  refine ⟨fun s hall => step_eq_self_of_waits ?_, fun s hwaits => step_eq_self_of_waits ?_⟩
  · intro before t later hs
    obtain ⟨i, hd, hi⟩ := hall t (by simp [hs])
    exact mustWait_of_held hd hi
  · intro before t later hs
    rcases hwaits before t later hs with ⟨i, hd, hi⟩ | ⟨u, hu, j, hdj, _, hbehind⟩
    · exact mustWait_of_held hd hi
    · have hj : agentOf j ∈ (before.map transactionAgent).reverse :=
        List.mem_reverse.2 (List.mem_map.2 ⟨u, hu, by simp [transactionAgent, hdj]⟩)
      rcases hbehind with ⟨i, hd, hne, hagent⟩ | ⟨⟨e, hd⟩, hhost⟩
      · exact (mustWait_iff_of_decodes hd).2 (.inr ⟨hagent ▸ hj, hne⟩)
      · exact (mustWait_iff_of_error hd).2 (hhost ▸ hj)

/-- Settles O7, by induction on the run. -/
theorem everyEnabledOrderRuns : Obligations.EveryEnabledOrderRuns :=
  fun _ _ _ later h => run_of_runEnabled later h

/-- Settles O8. -/
theorem heldExactlyWhenNothingChanges : Obligations.HeldExactlyWhenNothingChanges :=
  fun _ _ => ⟨exec_of_held, held_of_exec_eq_self⟩

/-- Settles O11. -/
theorem wellFormedOperationsNeverStop : Obligations.WellFormedOperationsNeverStop :=
  fun _ _ hw hinv => exec_next_of_wellFormed hw hinv

/-- Settles O57: the transaction picked has a reserved opcode, or decodes to an operation outside its domains. -/
theorem stepFaultsOnlyOutsideTheDomain : Obligations.StepFaultsOnlyOutsideTheDomain := by
  intro s r hinv h
  obtain ⟨htx, _⟩ := hinv
  rcases step_cases s with ⟨_, e⟩ | ⟨u, left, i, hp, hd, e⟩ | ⟨u, left, op, hp, hd, e⟩ |
    ⟨u, left, op, _, _, e⟩
  · rw [e] at h
    cases h
  · rw [e] at h
    obtain ⟨hw, hr⟩ := wellFormed_of_exec_fault (s := s.setPending left) htx h
    exact .inr ⟨u, mem_pending_of_pick hp, i, hd, hw, hr⟩
  · rw [e] at h
    cases h
    obtain ⟨rfl, hname⟩ := decodeOp_reservedOpcode hd
    exact .inl ⟨u, mem_pending_of_pick hp, rfl, hname⟩
  · rw [e] at h
    cases h

/-- Settles O4. -/
theorem stepRunsTheDecodedOperation : Obligations.StepRunsTheDecodedOperation :=
  fun _ _ _ _ hs hd hi => step_of_head hs hd hi

/-- Settles O38. -/
theorem frameOutsideItsDomainFaults : Obligations.FrameOutsideItsDomainFaults := by
  intro f nbytes start count s hlen
  have hf : f.wf = false := by rwa [← Bool.not_eq_true, RxFrame.wf_iff]
  exact ⟨execExtractStr_of_not_wf hf start count s, fun hlo hhi =>
    execExtractInt_of_not_wf ((nbytesLegal_iff nbytes).2 ⟨hlo, hhi⟩) hf start s⟩

end Machine

end Sys2Proof

/-! SUPPORT. The lemmas behind the state statements: what each operation writes, the invariant of each part of FRM
under it, and operations run in two states that differ in unwritten registers only. -/

namespace Sys2Proof

/-! ### Bytes -/

theorem u8_add (a b : Nat) : u8 (a + b) = u8 a + u8 b := BitVec.ofNat_add a b

@[simp] theorem u8_byte_toNat (b : Byte) : u8 b.toNat = b := by simp [u8]

namespace Machine

open Sys2Proof.Safety

/-! ### What each operation writes -/

/-- RX_BYTE holds and changes nothing, or the deframer accepts the byte (R70, R72). -/
theorem exec_rxByte_cases {b : Byte} {s t : State} (h : exec (.rxByte b) s = .next t) :
    (s.rxSt = .chk ∧ s.outValid = true ∧ t = s) ∨
    (¬ (s.rxSt = .chk ∧ s.outValid = true) ∧ t = acceptByte b s) := by
  rcases execRxByte_cases b s with ⟨hchk, hfull, e⟩ | ⟨hfree, e⟩
  · rw [exec, e] at h
    cases h
    exact .inl ⟨hchk, hfull, rfl⟩
  · rw [exec, e] at h
    cases h
    exact .inr ⟨hfree, rfl⟩

/-- Only a byte other than SOP1, taken while hunting, is noise (R69). -/
theorem acceptByte_rxNoiseCnt (b : Byte) (s : State) :
    (acceptByte b s).rxNoiseCnt =
      if s.rxSt = .hunt ∧ b ≠ 0xFF#8 then s.rxNoiseCnt + 1#32 else s.rxNoiseCnt := by
  cases hs : s.rxSt with
  | hunt => by_cases hb : b = 0xFF#8 <;> simp [acceptByte, hs, acceptHunt, hb]
  | chk => rcases acceptChk_cases b s with ⟨_, e⟩ | ⟨_, _, e⟩ <;> simp [acceptByte, hs, e]
  | sop2 | mrsp | seq | dlen | data =>
    simp [acceptByte, hs, acceptSop2, acceptMrsp, acceptSeq, acceptDlen, acceptData]

/-- Only a mismatched CHK byte sets RX_BADCHK (R71). -/
theorem acceptByte_rxBadchk (b : Byte) (s : State) :
    (acceptByte b s).rxBadchk = (s.rxBadchk || decide (s.rxSt = .chk ∧ b ≠ ~~~ s.rxSum)) := by
  by_cases hs : s.rxSt = .chk
  · rcases acceptChk_cases b s with ⟨_, e⟩ | ⟨hb, _, e⟩
    · by_cases hb : b = ~~~ s.rxSum
      · simp [acceptByte, hs, e, chkMatches, ← hb]
      · simp [acceptByte, hs, e, chkMatches, hb]
    · simp [acceptByte, hs, e, hb]
  · obtain ⟨_, e, _⟩ := acceptByte_beforeChk b s hs
    simp [e, hs]

/-- Only a mismatched CHK byte accepted while CHK_EN = 1 counts a discarded frame (R71). -/
theorem acceptByte_rxDropCnt (b : Byte) (s : State) :
    (acceptByte b s).rxDropCnt =
      if s.rxSt = .chk ∧ s.chkEn = true ∧ b ≠ ~~~ s.rxSum then s.rxDropCnt + 1#32
      else s.rxDropCnt := by
  by_cases hs : s.rxSt = .chk
  · rcases acceptChk_cases b s with ⟨hb | hen, e⟩ | ⟨hb, hen, e⟩
    · simp [acceptByte, hs, e, ← hb]
    · simp [acceptByte, hs, e, hen]
    · simp [acceptByte, hs, e, hen, hb]
  · obtain ⟨_, _, e⟩ := acceptByte_beforeChk b s hs
    simp [e, hs]

/-- A discarded frame is not delivered (R71). -/
theorem acceptByte_outValid_of_discard {b : Byte} {s : State} (hs : s.rxSt = .chk)
    (hen : s.chkEn = true) (hb : b ≠ ~~~ s.rxSum) : (acceptByte b s).outValid = s.outValid := by
  simp [acceptByte, hs, acceptChk, verifyFrame, chkMatches, hb, hen]

/-- CSR_WR leaves the TX framer, the deframer, the holding register, the counters and the ports alone (R81). -/
theorem writeCsr_frame (idx : BitVec 8) (val : Word32) (s : State) :
    SameTx s (writeCsr idx val s) ∧ SameRx s (writeCsr idx val s) ∧ SameOut s (writeCsr idx val s) ∧
      (writeCsr idx val s).rxDropCnt = s.rxDropCnt ∧ (writeCsr idx val s).rxNoiseCnt = s.rxNoiseCnt ∧
      (writeCsr idx val s).txOut = s.txOut ∧ (writeCsr idx val s).pending = s.pending := by
  rcases writeCsr_cases idx val s with ⟨_, e⟩ | ⟨_, e⟩ | ⟨_, e⟩ <;>
    simp [e, SameTx, SameRx, SameOut]

/-- CSR_WR leaves the sticky bits alone, or at index 0x01 clears those it writes 1 to (R16, R81). -/
theorem exec_csrWr_sticky {idx : BitVec 8} {val : Word32} {s t : State}
    (h : exec (.csrWr idx val) s = .next t) :
    (t.rxBadchk = s.rxBadchk ∧ t.txToobig = s.txToobig) ∨
    (idx = 0x01#8 ∧ t.rxBadchk = w1c (val.getLsbD 3) s.rxBadchk ∧
      t.txToobig = w1c (val.getLsbD 4) s.txToobig) := by
  rw [exec, execCsrWr_eq] at h
  cases h
  rcases writeCsr_cases idx val s with ⟨_, e⟩ | ⟨hidx, e⟩ | ⟨_, e⟩
  · exact .inl (by simp [e])
  · exact .inr ⟨hidx, by simp [e]⟩
  · exact .inl (by simp [e])

/-- A write that leaves a sticky bit clear where it was set wrote 1 to it (R16). -/
theorem w1c_cleared {w sticky : Bool} (hset : sticky = true) (hclear : w1c w sticky = false) :
    w = true := by
  simpa [w1c, hset] using hclear

/-- A write-1-to-clear never sets a bit (R16). -/
theorem w1c_of_clear (w : Bool) : w1c w false = false := rfl

/-- TX_SUBMIT leaves TX_TOOBIG alone, or sets it for an oversized request (R66). -/
theorem exec_txSubmit_txToobig {r : TxRequest} {s t : State} (h : exec (.txSubmit r) s = .next t) :
    t.txToobig = s.txToobig ∨ (255 < r.data.length ∧ t.txToobig = true) := by
  rcases execTxSubmit_cases h with ⟨hsize, rfl⟩ | ⟨_, _, rfl⟩ | ⟨_, _, rfl⟩
  · exact .inr ⟨hsize, rfl⟩
  · exact .inl rfl
  · exact .inl rfl

/-- Settles O52: each operation writes only what its meaning names. -/
theorem elementsAreWrittenOnlyByTheirOperations :
    Obligations.ElementsAreWrittenOnlyByTheirOperations := by
  intro i s t h hne
  rcases exec_cases h with ⟨r, rfl, hsubmit⟩ | ⟨rfl, hemit⟩ | ⟨b, rfl, hbyte⟩ | ⟨rfl, hpop⟩ |
    ⟨_, _, _, rfl, _⟩ | ⟨_, _, rfl⟩ | ⟨x, v, rfl, rfl⟩ | ⟨hreset, _⟩
  · rcases hsubmit with ⟨_, rfl⟩ | ⟨_, _, rfl⟩ | ⟨_, _, rfl⟩ <;> simp [SameRx, loadFrame]
  · rcases hemit with ⟨_, rfl⟩ | ⟨_, b, _, rfl⟩
    · simp [SameRx]
    · obtain ⟨hrx, ⟨hvalid, hframe⟩, ⟨hen, hbad, hbig, hdrop, hnoise⟩, _, _, hpending, hbuf⟩ :=
        advanceTx_frame s
      have hrx' : SameRx s ((advanceTx s).emit b) := hrx
      simp [*]
  · rcases hbyte with ⟨_, _, rfl⟩ | ⟨_, rfl⟩
    · simp [SameRx]
    · obtain ⟨⟨hbusy, hbuf, hidx⟩, hout, hen, hbig, _, hpending⟩ := acceptByte_frame b s
      simp [*]
  · rcases hpop with ⟨_, rfl⟩ | ⟨_, rfl⟩ <;> simp [SameRx]
  · simp [SameRx]
  · simp [SameRx]
  · obtain ⟨⟨hbusy, hbuf, hidx⟩, hrx, ⟨hvalid, hframe⟩, hdrop, hnoise, hout, hpending⟩ :=
      writeCsr_frame x v s
    have hrx' : SameRx s ((writeCsr x v s).addResponse (.ok .none)) := hrx
    simp [*]
  · exact absurd hreset hne

/-- What RESET leaves, with its answer (R82). -/
theorem exec_reset_eq {s t : State} (h : exec .reset s = .next t) :
    t = (clearState s).addResponse (.ok .none) := by
  cases h
  rfl

/-- Settles O44: the operations that write a sticky bit are O52's; what each writes is said above. -/
theorem stickyBitsChangeOnlyByTheirEvents : Obligations.StickyBitsChangeOnlyByTheirEvents := by
  intro i s t h
  by_cases hreset : i = .reset
  · subst hreset
    obtain rfl := exec_reset_eq h
    simp
  obtain ⟨_, hbad, hbig, _⟩ := elementsAreWrittenOnlyByTheirOperations i s t h hreset
  refine ⟨fun hs ht => .inr ?_, fun hs ht => .inr ?_, fun hs ht => ?_, fun hs ht => ?_⟩
  · rcases hbad (by simp [hs, ht]) with ⟨b, rfl⟩ | ⟨x, v, rfl⟩
    · rcases exec_rxByte_cases h with ⟨_, _, rfl⟩ | ⟨_, rfl⟩
      · simp [hs] at ht
      · simp [acceptByte_rxBadchk, hs] at ht
    · rcases exec_csrWr_sticky h with ⟨e, _⟩ | ⟨rfl, e, _⟩
      · simp [e, hs] at ht
      · exact ⟨v, rfl, w1c_cleared hs (e.symm.trans ht)⟩
  · rcases hbig (by simp [hs, ht]) with ⟨r, rfl⟩ | ⟨x, v, rfl⟩
    · rcases exec_txSubmit_txToobig h with e | ⟨_, e⟩ <;> simp [e, hs] at ht
    · rcases exec_csrWr_sticky h with ⟨_, e⟩ | ⟨rfl, _, e⟩
      · simp [e, hs] at ht
      · exact ⟨v, rfl, w1c_cleared hs (e.symm.trans ht)⟩
  · rcases hbad (by simp [hs, ht]) with ⟨b, rfl⟩ | ⟨x, v, rfl⟩
    · rcases exec_rxByte_cases h with ⟨_, _, rfl⟩ | ⟨_, rfl⟩
      · simp [hs] at ht
      · exact ⟨b, rfl, by simpa [acceptByte_rxBadchk, hs] using ht⟩
    · rcases exec_csrWr_sticky h with ⟨e, _⟩ | ⟨_, e, _⟩ <;> simp [e, hs, w1c_of_clear] at ht
  · rcases hbig (by simp [hs, ht]) with ⟨r, rfl⟩ | ⟨x, v, rfl⟩
    · rcases exec_txSubmit_txToobig h with e | ⟨hsize, _⟩
      · simp [e, hs] at ht
      · exact ⟨r, rfl, hsize⟩
    · rcases exec_csrWr_sticky h with ⟨_, e⟩ | ⟨_, _, e⟩ <;> simp [e, hs, w1c_of_clear] at ht

/-- Settles O46: only RX_BYTE writes the counter, by O52, and only at a CHK byte that discards a frame. -/
theorem dropCounterCountsDiscardedFrames : Obligations.DropCounterCountsDiscardedFrames := by
  refine ⟨rfl, fun _ => rfl, fun s t h => ?_, fun b s t h hs hout hen hb => ?_,
    fun i s t h hne hchange => ?_⟩
  · obtain rfl := exec_reset_eq h
    rfl
  · rcases exec_rxByte_cases h with ⟨_, hfull, _⟩ | ⟨_, rfl⟩
    · simp [hout] at hfull
    · exact ⟨by simp [acceptByte_rxDropCnt, hs, hen, hb],
        (acceptByte_outValid_of_discard hs hen hb).trans hout⟩
  · obtain ⟨_, _, _, hcount, _⟩ := elementsAreWrittenOnlyByTheirOperations i s t h hne
    obtain ⟨b, rfl⟩ := hcount (.inl hchange)
    rcases exec_rxByte_cases h with ⟨_, _, rfl⟩ | ⟨hfree, rfl⟩
    · exact absurd rfl hchange
    · have hevent : s.rxSt = .chk ∧ s.chkEn = true ∧ b ≠ ~~~ s.rxSum :=
        Decidable.byContradiction fun hno => hchange (by rw [acceptByte_rxDropCnt, if_neg hno])
      obtain ⟨hs, hen, hb⟩ := hevent
      exact ⟨⟨b, rfl, hb⟩, hs, by simpa [hs] using hfree, hen⟩

/-- Settles O47: only RX_BYTE writes the counter, by O52, and only at a byte that is noise. -/
theorem noiseCounterCountsDiscardedBytes : Obligations.NoiseCounterCountsDiscardedBytes := by
  refine ⟨rfl, fun _ => rfl, fun s t h => ?_, fun b s t h hs hb => ?_,
    fun i s t h hne hchange => ?_⟩
  · obtain rfl := exec_reset_eq h
    rfl
  · rcases exec_rxByte_cases h with ⟨hchk, _, _⟩ | ⟨_, rfl⟩
    · simp [hs] at hchk
    · rw [acceptByte_rxNoiseCnt, if_pos ⟨hs, hb⟩]
  · obtain ⟨_, _, _, hcount, _⟩ := elementsAreWrittenOnlyByTheirOperations i s t h hne
    obtain ⟨b, rfl⟩ := hcount (.inr hchange)
    rcases exec_rxByte_cases h with ⟨_, _, rfl⟩ | ⟨_, rfl⟩
    · exact absurd rfl hchange
    · have hevent : s.rxSt = .hunt ∧ b ≠ 0xFF#8 :=
        Decidable.byContradiction fun hno => hchange (by rw [acceptByte_rxNoiseCnt, if_neg hno])
      obtain ⟨hs, hb⟩ := hevent
      exact ⟨⟨b, rfl, hb⟩, hs⟩

/-! ### The invariant of each part of FRM -/

/-- The invariant of the TX framer, with a whole frame in flight (R19, R66). -/
def FramerInv (s : State) : Prop :=
  TxInv s ∧ InFlightInv s

/-- The invariant of the deframer and of the frame it delivers (R21, R25). -/
def DeframerInv (s : State) : Prop :=
  RxInv s ∧ OutInv s

theorem inv_iff (s : State) : Inv s ↔ FramerInv s ∧ DeframerInv s :=
  and_assoc.symm

theorem FramerInv.congr {s t : State} (htx : SameTx s t) (h : FramerInv s) : FramerInv t := by
  obtain ⟨hbusy, hbuf, hidx⟩ := htx
  simpa only [FramerInv, TxInv, InFlightInv, hbusy, hbuf, hidx] using h

theorem DeframerInv.congr {s t : State} (hrx : SameRx s t) (hout : SameOut s t)
    (h : DeframerInv s) : DeframerInv t := by
  obtain ⟨hst, hsop2, hmrsp, hseq, hdlen, hpay, hsum⟩ := hrx
  obtain ⟨hvalid, hframe⟩ := hout
  simpa only [DeframerInv, RxInv, OutInv, wholeSum, hst, hsop2, hmrsp, hseq, hdlen, hpay, hsum,
    hvalid, hframe] using h

/-- A framer with nothing in flight meets its invariant (R19). -/
theorem framerInv_of_idle {s : State} (hbusy : s.txBusy = false) (hidx : s.txIdx = 0#9) :
    FramerInv s := by
  simp [FramerInv, TxInv, InFlightInv, hbusy, hidx]

/-- An accepted request puts its whole frame in flight (R66). -/
theorem loadFrame_framerInv {r : TxRequest} (hr : r.data.length ≤ 255) (s : State) :
    FramerInv (loadFrame r s) := by
  refine ⟨⟨fun _ => ?_, by simp [loadFrame]⟩, fun _ => ⟨r, hr, rfl⟩⟩
  simp only [loadFrame, frameBytes_length, BitVec.toNat_ofNat]
  omega

/-- Sending a byte keeps `tx_idx` inside the frame in flight (R67). -/
theorem advanceTx_framerInv {s : State} (hbusy : s.txBusy = true) (h : FramerInv s) :
    FramerInv (advanceTx s) := by
  obtain ⟨⟨hbounds, _⟩, hframe⟩ := h
  obtain ⟨hlo, hhi, hidx⟩ := hbounds hbusy
  unfold advanceTx
  split
  · exact framerInv_of_idle rfl rfl
  · next hlast =>
    have hnext : (s.txIdx + 1#9).toNat < s.txBuf.length := by
      rw [BitVec.toNat_add_of_lt] <;> simp <;> omega
    exact ⟨⟨fun _ => ⟨hlo, hhi, hnext⟩, fun hidle => by simp [hbusy] at hidle⟩, hframe⟩

/-- The sum of the header fields and the payload as bytes, modulo 256 (R68, R71). -/
theorem wholeSum_eq (s : State) :
    wholeSum s = s.rxMrsp + s.rxSeq + s.rxDlen + 1#8 + u8 (byteSum s.rxPay) := by
  simp only [wholeSum, u8_add, u8_byte_toNat]
  rfl

/-- At the CHK byte the complement of the running sum is the inbound checksum (R68, R71). -/
theorem not_rxSum_eq_ckRx {s : State} (h : RxInv s) (hs : s.rxSt = .chk) :
    ~~~ s.rxSum = ckRx s.rxMrsp s.rxSeq s.rxPay := by
  obtain ⟨_, _, _, _, hchk⟩ := h
  obtain ⟨hlen, hsum⟩ := hchk hs
  rw [hsum, wholeSum, ckRx, ck8, hlen]
  simp only [List.cons_append, List.nil_append, byteSum_cons, u8_add, u8_byte_toNat]
  congr 1
  ac_rfl

theorem rxInv_of_data {s : State} (hs : s.rxSt = .data) (hlen : s.rxPay.length < s.rxDlen.toNat)
    (hsum : s.rxSum = wholeSum s) : RxInv s := by
  simp [RxInv, hs, hlen, ← hsum]

theorem rxInv_of_chk {s : State} (hs : s.rxSt = .chk) (hlen : s.rxPay.length = s.rxDlen.toNat)
    (hsum : s.rxSum = wholeSum s) : RxInv s := by
  simp [RxInv, hs, hlen, ← hsum]

/-- Every accepted byte keeps the payload count and the running sum of the deframer (R70, R71). -/
theorem acceptByte_rxInv (b : Byte) {s : State} (h : RxInv s) : RxInv (acceptByte b s) := by
  obtain ⟨hempty, hseq, hdlen, hdata, _⟩ := h
  cases hs : s.rxSt with
  | hunt =>
    have hpay : s.rxPay = [] := hempty (by simp [hs]) (by simp [hs])
    by_cases hb : b = Config.sop1 <;> simp [acceptByte, hs, acceptHunt, hb, RxInv, hpay]
  | sop2 | mrsp =>
    have hpay : s.rxPay = [] := hempty (by simp [hs]) (by simp [hs])
    simp [acceptByte, hs, acceptSop2, acceptMrsp, RxInv, hpay]
  | seq =>
    have hpay : s.rxPay = [] := hempty (by simp [hs]) (by simp [hs])
    simp [acceptByte, hs, acceptSeq, RxInv, hpay, hseq hs]
  | dlen =>
    have e : acceptByte b s = acceptDlen b s := by simp only [acceptByte, hs]
    have hsum : (acceptDlen b s).rxSum = wholeSum (acceptDlen b s) := by
      simp [acceptDlen, wholeSum_eq, hdlen hs, u8]
    rw [e]
    by_cases hb : b = 0#8
    · exact rxInv_of_chk (by simp [acceptDlen, hb]) (by simp [acceptDlen, hb]) hsum
    · have hpos : 0 < b.toNat := by bv_omega
      exact rxInv_of_data (by simp [acceptDlen, hb]) hpos hsum
  | data =>
    have e : acceptByte b s = acceptData b s := by simp only [acceptByte, hs]
    obtain ⟨hlen, hsum⟩ := hdata hs
    have hsum' : (acceptData b s).rxSum = wholeSum (acceptData b s) := by
      simp only [hsum, wholeSum_eq, acceptData, byteSum_append, byteSum_cons, byteSum_nil, u8_add,
        Nat.add_zero, u8_byte_toNat, BitVec.add_assoc]
    rw [e]
    by_cases hlast : s.rxPay.length + 1 = s.rxDlen.toNat
    · exact rxInv_of_chk (by simp [acceptData, hlast]) (by simp [acceptData, hlast]) hsum'
    · have hmore : s.rxPay.length + 1 < s.rxDlen.toNat := by omega
      exact rxInv_of_data (by simp [acceptData, hlast, hs]) (by simpa [acceptData] using hmore) hsum'
  | chk =>
    rcases acceptChk_cases b s with ⟨_, e⟩ | ⟨_, _, e⟩ <;> simp [acceptByte, hs, e, RxInv]

/-- The frame a CHK byte completes has the payload its DLEN announces, and says whether its CHK is right (R25, R71). -/
theorem acceptByte_outInv (b : Byte) {s : State} (hrx : RxInv s) (h : OutInv s) :
    OutInv (acceptByte b s) := by
  by_cases hs : s.rxSt = .chk
  · have hck := not_rxSum_eq_ckRx hrx hs
    obtain ⟨_, _, _, _, hchk⟩ := hrx
    obtain ⟨hlen, _⟩ := hchk hs
    rcases acceptChk_cases b s with ⟨_, e⟩ | ⟨_, _, e⟩
    · simp [acceptByte, hs, e, OutInv, completedFrame, chkMatches, hck, hlen]
    · simpa [acceptByte, hs, e, OutInv] using h
  · obtain ⟨⟨hvalid, hframe⟩, _⟩ := acceptByte_beforeChk b s hs
    simpa only [OutInv, hvalid, hframe] using h

/-- An empty deframer with nothing delivered meets its invariant (R21, R22). -/
theorem deframerInv_of_empty {s : State} (hst : s.rxSt = .hunt) (hpay : s.rxPay = [])
    (hvalid : s.outValid = false) : DeframerInv s := by
  simp [DeframerInv, RxInv, OutInv, hst, hpay, hvalid]

/-- Every operation keeps the invariant of the TX framer (R19, R66, R67). -/
theorem exec_framerInv {i : Instr} {s t : State} (hexec : exec i s = .next t) (h : FramerInv s) :
    FramerInv t := by
  rcases exec_cases hexec with ⟨r, _, hsubmit⟩ | ⟨_, hemit⟩ | ⟨b, _, hbyte⟩ | ⟨_, hpop⟩ |
    ⟨_, _, _, rfl, _⟩ | ⟨_, _, rfl⟩ | ⟨x, v, _, rfl⟩ | ⟨_, rfl⟩
  · rcases hsubmit with ⟨_, rfl⟩ | ⟨_, _, rfl⟩ | ⟨hsize, _, rfl⟩
    · exact h
    · exact h
    · exact loadFrame_framerInv hsize s
  · rcases hemit with ⟨_, rfl⟩ | ⟨hbusy, _, _, rfl⟩
    · exact h
    · exact advanceTx_framerInv hbusy h
  · rcases hbyte with ⟨_, _, rfl⟩ | ⟨_, rfl⟩
    · exact h
    · exact h.congr (acceptByte_frame b s).1
  · rcases hpop with ⟨_, rfl⟩ | ⟨_, rfl⟩ <;> exact h
  · exact h
  · exact h
  · exact h.congr (writeCsr_frame x v s).1
  · exact framerInv_of_idle rfl rfl

/-- Every operation keeps the invariant of the deframer and of the delivered frame (R21, R25, R70, R71). -/
theorem exec_deframerInv {i : Instr} {s t : State} (hexec : exec i s = .next t)
    (h : DeframerInv s) : DeframerInv t := by
  obtain ⟨hrx, hout⟩ := h
  rcases exec_cases hexec with ⟨r, _, hsubmit⟩ | ⟨_, hemit⟩ | ⟨b, _, hbyte⟩ | ⟨_, hpop⟩ |
    ⟨_, _, _, rfl, _⟩ | ⟨_, _, rfl⟩ | ⟨x, v, _, rfl⟩ | ⟨_, rfl⟩
  · rcases hsubmit with ⟨_, rfl⟩ | ⟨_, _, rfl⟩ | ⟨_, _, rfl⟩ <;> exact ⟨hrx, hout⟩
  · rcases hemit with ⟨_, rfl⟩ | ⟨_, _, _, rfl⟩
    · exact ⟨hrx, hout⟩
    · obtain ⟨hsameRx, hsameOut, _⟩ := advanceTx_frame s
      exact DeframerInv.congr (s := s) hsameRx hsameOut ⟨hrx, hout⟩
  · rcases hbyte with ⟨_, _, rfl⟩ | ⟨_, rfl⟩
    · exact ⟨hrx, hout⟩
    · exact ⟨acceptByte_rxInv b hrx, acceptByte_outInv b hrx hout⟩
  · rcases hpop with ⟨_, rfl⟩ | ⟨_, rfl⟩
    · exact ⟨hrx, hout⟩
    · exact ⟨hrx, fun hvalid => by cases hvalid⟩
  · exact ⟨hrx, hout⟩
  · exact ⟨hrx, hout⟩
  · obtain ⟨_, hsameRx, hsameOut, _⟩ := writeCsr_frame x v s
    exact DeframerInv.congr (s := s) hsameRx hsameOut ⟨hrx, hout⟩
  · exact deframerInv_of_empty rfl rfl rfl

/-- Settles O55: the operation the step runs keeps the invariants of both sides. -/
theorem stepKeepsTheInvariant : Obligations.StepKeepsTheInvariant := by
  intro s t hinv h
  obtain ⟨htx, hrx⟩ := (inv_iff s).1 hinv
  rcases step_cases s with ⟨_, e⟩ | ⟨_, left, i, _, _, e⟩ | ⟨_, _, _, _, _, e⟩ | ⟨_, _, _, _, _, e⟩
  · rw [e] at h
    cases h
    exact hinv
  · rw [e] at h
    exact (inv_iff t).2
      ⟨exec_framerInv h (s := s.setPending left) htx, exec_deframerInv h (s := s.setPending left) hrx⟩
  · rw [e] at h
    cases h
  · rw [e] at h
    cases h

/-! ### Two states that differ in unwritten registers only -/

/-- The TX framers agree; `tx_buf` need not while nothing is in flight (R23). -/
def AgreeTx (s t : State) : Prop :=
  t.txBusy = s.txBusy ∧ t.txIdx = s.txIdx ∧ (s.txBusy = true → t.txBuf = s.txBuf)

/-- The deframers agree on the registers the frame in progress has written (R23). -/
def AgreeRx (s t : State) : Prop :=
  t.rxSt = s.rxSt ∧ t.rxPay = s.rxPay ∧
  (s.rxSt ≠ .hunt → s.rxSt ≠ .sop2 → t.rxSop2 = s.rxSop2) ∧
  (s.rxSt = .seq ∨ s.rxSt = .dlen ∨ s.rxSt = .data ∨ s.rxSt = .chk →
    t.rxMrsp = s.rxMrsp ∧ t.rxSum = s.rxSum) ∧
  (s.rxSt = .dlen ∨ s.rxSt = .data ∨ s.rxSt = .chk → t.rxSeq = s.rxSeq) ∧
  (s.rxSt = .data ∨ s.rxSt = .chk → t.rxDlen = s.rxDlen)

/-- The holding registers agree; `out_frame` need not while nothing is delivered (R23). -/
def AgreeOut (s t : State) : Prop :=
  t.outValid = s.outValid ∧ (s.outValid = true → t.outFrame = s.outFrame)

/-- The ports agree (log 2, log 5). -/
def SamePorts (s t : State) : Prop :=
  t.pending = s.pending ∧ t.txOut = s.txOut ∧ t.responses = s.responses

theorem agreeWhereWritten_iff (s t : State) :
    AgreeWhereWritten s t ↔
      SameCsr s t ∧ AgreeTx s t ∧ AgreeRx s t ∧ AgreeOut s t ∧ SamePorts s t := by
  simp only [AgreeWhereWritten, AgreeTx, AgreeRx, AgreeOut, SamePorts, and_assoc]

/-- The CHK byte fills the holding register unless it discards the frame (R71). -/
theorem acceptChk_outValid (b : Byte) (s : State) :
    (acceptChk b s).outValid =
      if b = ~~~ s.rxSum ∨ s.chkEn = false then true else s.outValid := by
  rcases acceptChk_cases b s with ⟨hdeliver, e⟩ | ⟨hb, hen, e⟩
  · simp [e, if_pos hdeliver]
  · simp [e, hb, hen]

theorem acceptChk_outFrame (b : Byte) (s : State) :
    (acceptChk b s).outFrame =
      if b = ~~~ s.rxSum ∨ s.chkEn = false then completedFrame b s else s.outFrame := by
  rcases acceptChk_cases b s with ⟨hdeliver, e⟩ | ⟨hb, hen, e⟩
  · rw [e, if_pos hdeliver]
  · simp [e, hb, hen]

section
variable {s t : State} (h : AgreeWhereWritten s t)
include h

theorem setPending_agree (ts : List Transaction) :
    AgreeWhereWritten (s.setPending ts) (t.setPending ts) := by
  obtain ⟨hcsr, htx, hrx, hout, _, hports⟩ := (agreeWhereWritten_iff s t).1 h
  exact (agreeWhereWritten_iff _ _).2 ⟨hcsr, htx, hrx, hout, rfl, hports⟩

theorem addResponse_agree (r : Response) :
    AgreeWhereWritten (s.addResponse r) (t.addResponse r) := by
  obtain ⟨hcsr, htx, hrx, hout, hpending, hsent, hanswers⟩ := (agreeWhereWritten_iff s t).1 h
  exact (agreeWhereWritten_iff _ _).2
    ⟨hcsr, htx, hrx, hout, hpending, hsent, congrArg (· ++ [r]) hanswers⟩

theorem emit_agree (b : Byte) : AgreeWhereWritten (s.emit b) (t.emit b) := by
  obtain ⟨hcsr, htx, hrx, hout, hpending, hsent, hanswers⟩ := (agreeWhereWritten_iff s t).1 h
  exact (agreeWhereWritten_iff _ _).2
    ⟨hcsr, htx, hrx, hout, hpending, congrArg (· ++ [b]) hsent, hanswers⟩

/-- The enabling conditions read no unwritten register (R6). -/
theorem held_eq_of_agree (i : Instr) : held i t = held i s := by
  obtain ⟨_, ⟨hbusy, _⟩, ⟨hst, _⟩, ⟨hvalid, _⟩, _⟩ := (agreeWhereWritten_iff s t).1 h
  cases i <;> simp only [held, txSubmitHeld, txEmitHeld, rxByteHeld, rxPopHeld, hbusy, hst, hvalid]

theorem mustWait_eq_of_agree (waiting : List Agent) (u : Transaction) :
    mustWait waiting u t = mustWait waiting u s := by
  have hheld : transactionHeld u t = transactionHeld u s := by
    unfold transactionHeld
    split
    · exact held_eq_of_agree h _
    · rfl
  rw [mustWait, mustWait, hheld]

/-- The choice of the next operation reads no unwritten register (log 2). -/
theorem pick_eq_of_agree (waiting : List Agent) (ts : List Transaction) :
    pick t waiting ts = pick s waiting ts := by
  induction ts generalizing waiting with
  | nil => rfl
  | cons u us ih => rw [pick, pick, mustWait_eq_of_agree h, ih]

/-- CSR_RD reads no unwritten register (R80). -/
theorem readCsr_eq_of_agree (idx : BitVec 8) : readCsr idx t = readCsr idx s := by
  obtain ⟨⟨hen, hbad, hbig, hdrop, hnoise⟩, ⟨hbusy, _⟩, ⟨hst, _⟩, ⟨hvalid, _⟩, _⟩ :=
    (agreeWhereWritten_iff s t).1 h
  simp only [readCsr, ctrlWord, statusWord, rxInFrame, hen, hbad, hbig, hdrop, hnoise, hbusy, hst,
    hvalid]

theorem writeCsr_agree (idx : BitVec 8) (val : Word32) :
    AgreeWhereWritten (writeCsr idx val s) (writeCsr idx val t) := by
  obtain ⟨⟨hen, hbad, hbig, hcounts⟩, hrest⟩ := (agreeWhereWritten_iff s t).1 h
  unfold writeCsr
  split
  · exact (agreeWhereWritten_iff _ _).2 ⟨⟨rfl, hbad, hbig, hcounts⟩, hrest⟩
  · exact (agreeWhereWritten_iff _ _).2
      ⟨⟨hen, congrArg (w1c _) hbad, congrArg (w1c _) hbig, hcounts⟩, hrest⟩
  · exact h

/-- RESET leaves values that may differ only in registers that count as unwritten again (R82; log 8). -/
theorem clearState_agree : AgreeWhereWritten (clearState s) (clearState t) := by
  obtain ⟨_, _, _, _, hports⟩ := (agreeWhereWritten_iff s t).1 h
  refine (agreeWhereWritten_iff _ _).2 ⟨?_, ?_, ?_, ?_, hports⟩
  · exact ⟨rfl, rfl, rfl, rfl, rfl⟩
  · exact ⟨rfl, rfl, fun _ => rfl⟩
  · simp [AgreeRx]
  · simp [AgreeOut]

theorem setTxToobig_agree :
    AgreeWhereWritten { s with txToobig := true } { t with txToobig := true } := by
  obtain ⟨⟨hen, hbad, _, hcounts⟩, hrest⟩ := (agreeWhereWritten_iff s t).1 h
  exact (agreeWhereWritten_iff _ _).2 ⟨⟨hen, hbad, rfl, hcounts⟩, hrest⟩

theorem loadFrame_agree (r : TxRequest) :
    AgreeWhereWritten (loadFrame r s) (loadFrame r t) := by
  obtain ⟨hcsr, _, hrest⟩ := (agreeWhereWritten_iff s t).1 h
  exact (agreeWhereWritten_iff _ _).2 ⟨hcsr, ⟨rfl, rfl, fun _ => rfl⟩, hrest⟩

theorem takeOut_agree :
    AgreeWhereWritten { s with outValid := false } { t with outValid := false } := by
  obtain ⟨hcsr, htx, hrx, _, hports⟩ := (agreeWhereWritten_iff s t).1 h
  exact (agreeWhereWritten_iff _ _).2 ⟨hcsr, htx, hrx, ⟨rfl, fun hno => by cases hno⟩, hports⟩

/-- While a frame is in flight, `tx_buf` is written and both framers move on alike (R67). -/
theorem advanceTx_agree (hbusy : s.txBusy = true) :
    AgreeWhereWritten (advanceTx s) (advanceTx t) := by
  obtain ⟨hcsr, ⟨hbusyEq, hidx, hbuf⟩, hrest⟩ := (agreeWhereWritten_iff s t).1 h
  unfold advanceTx
  rw [hidx, hbuf hbusy]
  split
  · exact (agreeWhereWritten_iff _ _).2 ⟨hcsr, ⟨rfl, rfl, fun hno => by cases hno⟩, hrest⟩
  · exact (agreeWhereWritten_iff _ _).2 ⟨hcsr, ⟨hbusyEq, rfl, fun _ => rfl⟩, hrest⟩

/-- A byte writes registers of the frame in progress from the byte and from registers already written (R70, R71). -/
theorem acceptByte_agreeRx (b : Byte) : AgreeRx (acceptByte b s) (acceptByte b t) := by
  obtain ⟨_, _, ⟨hst, hpay, hsop2, hsum, hseq, hdlen⟩, _⟩ := (agreeWhereWritten_iff s t).1 h
  cases hs : s.rxSt with
  | hunt =>
    by_cases hb : b = Config.sop1 <;> simp [acceptByte, hst, hs, acceptHunt, hb, AgreeRx, hpay]
  | sop2 => simp [acceptByte, hst, hs, acceptSop2, AgreeRx, hpay]
  | mrsp => simp [acceptByte, hst, hs, acceptMrsp, AgreeRx, hpay, hsop2]
  | seq => simp [acceptByte, hst, hs, acceptSeq, AgreeRx, hpay, hsop2, hsum]
  | dlen => simp [acceptByte, hst, hs, acceptDlen, AgreeRx, hsop2, hsum, hseq]
  | data => simp [acceptByte, hst, hs, acceptData, AgreeRx, hpay, hsop2, hsum, hseq, hdlen]
  | chk => simp [acceptByte, hst, hs, acceptChk, AgreeRx]

/-- The CHK byte delivers a frame made of written registers only; no other byte delivers one (R70, R71). -/
theorem acceptByte_agreeOut (b : Byte) : AgreeOut (acceptByte b s) (acceptByte b t) := by
  obtain ⟨⟨hen, _⟩, _, ⟨hst, hpay, hsop2, hsum, hseq, hdlen⟩, ⟨hvalid, hframe⟩, _⟩ :=
    (agreeWhereWritten_iff s t).1 h
  by_cases hs : s.rxSt = .chk
  · have hcompleted : completedFrame b t = completedFrame b s := by
      simp [completedFrame, chkMatches, hs, hpay, hsop2, hsum, hseq, hdlen]
    have hsumEq : t.rxSum = s.rxSum := (hsum (by simp [hs])).2
    simp only [acceptByte, hst, hs, AgreeOut, acceptChk_outValid, acceptChk_outFrame, hcompleted,
      hsumEq, hen]
    by_cases hdeliver : b = ~~~ s.rxSum ∨ s.chkEn = false
    · simp only [if_pos hdeliver]
      exact ⟨trivial, fun _ => trivial⟩
    · simp only [if_neg hdeliver]
      exact ⟨hvalid, hframe⟩
  · obtain ⟨⟨hvalid_s, hframe_s⟩, _⟩ := acceptByte_beforeChk b s hs
    obtain ⟨⟨hvalid_t, hframe_t⟩, _⟩ := acceptByte_beforeChk b t (hst ▸ hs)
    simpa only [AgreeOut, hvalid_s, hframe_s, hvalid_t, hframe_t] using ⟨hvalid, hframe⟩

theorem acceptByte_agree (b : Byte) : AgreeWhereWritten (acceptByte b s) (acceptByte b t) := by
  obtain ⟨⟨hen, hbad, hbig, hdrop, hnoise⟩, htx, ⟨hst, _, _, hsum, _⟩, _, hpending, hsent, hanswers⟩ :=
    (agreeWhereWritten_iff s t).1 h
  have hsumChk : s.rxSt = .chk → t.rxSum = s.rxSum := fun hs => (hsum (by simp [hs])).2
  obtain ⟨⟨hbusy_s, hbuf_s, hidx_s⟩, hsent_s, hen_s, hbig_s, hanswers_s, hpending_s⟩ :=
    acceptByte_frame b s
  obtain ⟨⟨hbusy_t, hbuf_t, hidx_t⟩, hsent_t, hen_t, hbig_t, hanswers_t, hpending_t⟩ :=
    acceptByte_frame b t
  refine (agreeWhereWritten_iff _ _).2
    ⟨?_, ?_, acceptByte_agreeRx h b, acceptByte_agreeOut h b, ?_⟩
  · refine ⟨by rw [hen_s, hen_t, hen], ?_, by rw [hbig_s, hbig_t, hbig], ?_, ?_⟩
    · by_cases hs : s.rxSt = .chk <;> simp [acceptByte_rxBadchk, hst, hs, hsumChk, hbad]
    · by_cases hs : s.rxSt = .chk <;> simp [acceptByte_rxDropCnt, hst, hs, hsumChk, hen, hdrop]
    · simp only [acceptByte_rxNoiseCnt, hst, hnoise]
  · simpa only [AgreeTx, hbusy_s, hbuf_s, hidx_s, hbusy_t, hbuf_t, hidx_t] using htx
  · exact ⟨by rw [hpending_s, hpending_t, hpending], by rw [hsent_s, hsent_t, hsent],
      by rw [hanswers_s, hanswers_t, hanswers]⟩

theorem execTxSubmit_agree (r : TxRequest) : AnswersAgree (execTxSubmit r s) (execTxSubmit r t) := by
  have hheld : txSubmitHeld r t = txSubmitHeld r s := held_eq_of_agree h (.txSubmit r)
  rw [execTxSubmit, execTxSubmit, hheld]
  split
  · exact addResponse_agree (setTxToobig_agree h) _
  · split
    · exact h
    · exact addResponse_agree (loadFrame_agree h r) _

theorem execTxEmit_agree : AnswersAgree (execTxEmit s) (execTxEmit t) := by
  have hheld : txEmitHeld t = txEmitHeld s := held_eq_of_agree h .txEmit
  rw [execTxEmit, execTxEmit, hheld]
  split
  · exact h
  · next hfree =>
    have hbusy : s.txBusy = true := by simpa [txEmitHeld] using hfree
    obtain ⟨_, ⟨_, hidx, hbuf⟩, _⟩ := (agreeWhereWritten_iff s t).1 h
    rw [hidx, hbuf hbusy]
    split
    · rfl
    · exact emit_agree (advanceTx_agree h hbusy) _

theorem execRxByte_agree (b : Byte) : AnswersAgree (execRxByte b s) (execRxByte b t) := by
  have hheld : rxByteHeld t = rxByteHeld s := held_eq_of_agree h (.rxByte b)
  rw [execRxByte, execRxByte, hheld]
  split
  · exact h
  · exact acceptByte_agree h b

/-- RX_POP reads `out_frame` only where a frame is delivered (R75). -/
theorem execRxPop_agree : AnswersAgree (execRxPop s) (execRxPop t) := by
  have hheld : rxPopHeld t = rxPopHeld s := held_eq_of_agree h .rxPop
  rw [execRxPop, execRxPop, hheld]
  split
  · exact h
  · next hfull =>
    obtain ⟨_, _, _, ⟨_, hframe⟩, _⟩ := (agreeWhereWritten_iff s t).1 h
    have hvalue : Value.frame t.outFrame = Value.frame s.outFrame :=
      congrArg Value.frame (hframe (by simpa [rxPopHeld] using hfull))
    rw [hvalue]
    exact addResponse_agree (takeOut_agree h) _

/-- An operation reads no unwritten register (R23). -/
theorem exec_agree (i : Instr) : AnswersAgree (exec i s) (exec i t) := by
  cases i with
  | txSubmit r => exact execTxSubmit_agree h r
  | txEmit => exact execTxEmit_agree h
  | rxByte b => exact execRxByte_agree h b
  | rxPop => exact execRxPop_agree h
  | decode buf =>
    rw [exec, exec, execDecode, execDecode]
    split <;> exact addResponse_agree h _
  | extractInt f n start =>
    rw [exec, exec, execExtractInt, execExtractInt]
    split
    · split
      · exact addResponse_agree h _
      · rfl
    · rfl
  | extractStr f start count =>
    rw [exec, exec, execExtractStr, execExtractStr]
    split
    · exact addResponse_agree h _
    · rfl
  | csrRd idx =>
    rw [exec, exec, execCsrRd, execCsrRd, readCsr_eq_of_agree h]
    exact addResponse_agree h _
  | csrWr idx val => exact addResponse_agree (writeCsr_agree h idx val) _
  | reset => exact addResponse_agree (clearState_agree h) _

end

/-- Settles O58: the same operation is picked in both states, and answers alike in both. -/
theorem unwrittenRegistersAreNeverObserved : Obligations.UnwrittenRegistersAreNeverObserved := by
  intro s t h
  obtain ⟨_, _, _, _, hpending, _⟩ := (agreeWhereWritten_iff s t).1 h
  have hpick : pick t [] t.pending = pick s [] s.pending := by
    rw [hpending, pick_eq_of_agree h]
  rw [step, step, hpick]
  split
  · exact h
  · next left _ =>
    split
    · exact exec_agree (setPending_agree h left) _
    · rfl
    · rfl

end Machine

end Sys2Proof

/-! SUPPORT. The lemmas behind the memory statements: what the operations of one side leave alone, what each operation
does to the outbound stream and to the holding register, and TX_EMIT beside RX_BYTE. -/

namespace Sys2Proof

namespace Machine

open Sys2Proof.Safety

/-! ### What an operation leaves alone, read off the "written by" column (R28) -/

/-- Only TX_SUBMIT, TX_EMIT and RESET write the TX side (R28; `txOut`, log 5). -/
theorem exec_sameTx {i : Instr} {s t : State} (h : exec i s = .next t) (hreset : i ≠ .reset)
    (hsubmit : ∀ r, i ≠ .txSubmit r) (hemit : i ≠ .txEmit) : SameTx s t ∧ t.txOut = s.txOut := by
  obtain ⟨_, _, _, _, hframer, hbuf, _, _, _, hout, _⟩ :=
    elementsAreWrittenOnlyByTheirOperations i s t h hreset
  have hno : ¬ ((∃ r, i = .txSubmit r) ∨ i = .txEmit) := by simp [hsubmit, hemit]
  refine ⟨⟨?_, ?_, ?_⟩, ?_⟩
  · exact Decidable.byContradiction fun hne => hno (hframer (.inl hne))
  · exact Decidable.byContradiction fun hne => hno (.inl (hbuf hne))
  · exact Decidable.byContradiction fun hne => hno (hframer (.inr hne))
  · exact Decidable.byContradiction fun hne => hemit (hout hne)

/-- Only RX_BYTE, RX_POP and RESET write the holding register (R28). -/
theorem exec_sameOut {i : Instr} {s t : State} (h : exec i s = .next t) (hreset : i ≠ .reset)
    (hbyte : ∀ b, i ≠ .rxByte b) (hpop : i ≠ .rxPop) : SameOut s t := by
  obtain ⟨_, _, _, _, _, _, _, hvalid, hframe, _⟩ :=
    elementsAreWrittenOnlyByTheirOperations i s t h hreset
  constructor
  · exact Decidable.byContradiction fun hne => (hvalid hne).elim (fun ⟨b, e⟩ => hbyte b e) hpop
  · exact Decidable.byContradiction fun hne => (hframe hne).elim hbyte

/-! ### The outbound stream -/

theorem txInv_congr {s t : State} (htx : SameTx s t) (h : TxInv s) : TxInv t := by
  obtain ⟨hbusy, hbuf, hidx⟩ := htx
  simpa only [TxInv, hbusy, hbuf, hidx] using h

theorem toSend_congr {s t : State} (htx : SameTx s t) : toSend t = toSend s := by
  obtain ⟨hbusy, hbuf, hidx⟩ := htx
  simp only [toSend, hbusy, hbuf, hidx]

theorem toSend_of_idle {s : State} (hbusy : s.txBusy = false) : toSend s = [] := by
  simp [toSend, hbusy]

/-- An accepted request has its whole frame still to send (R66). -/
theorem toSend_loadFrame (r : TxRequest) (s : State) : toSend (loadFrame r s) = frameBytes r := by
  simp [toSend, loadFrame]

/-- While a frame is in flight the 9 bits of `tx_idx` never wrap (R19). -/
theorem txIdx_succ_toNat {s : State} (hinv : TxInv s) (hbusy : s.txBusy = true) :
    (s.txIdx + 1#9).toNat = s.txIdx.toNat + 1 := by
  obtain ⟨hbounds, _⟩ := hinv
  obtain ⟨_, hlen, hidx⟩ := hbounds hbusy
  rw [BitVec.toNat_add_of_lt] <;> simp
  omega

theorem advanceTx_txInv {s : State} (hinv : TxInv s) (hbusy : s.txBusy = true) :
    TxInv (advanceTx s) := by
  have hsucc := txIdx_succ_toNat hinv hbusy
  obtain ⟨hbounds, _⟩ := hinv
  obtain ⟨hlo, hhi, hidx⟩ := hbounds hbusy
  unfold advanceTx
  split
  · exact (framerInv_of_idle rfl rfl).1
  · exact ⟨fun _ => ⟨hlo, hhi, by simp only [hsucc]; omega⟩, fun hidle => by simp [hbusy] at hidle⟩

/-- The byte TX_EMIT sends is the first of those still to send, and the others stay to be sent (R67). -/
theorem toSend_eq_cons {s : State} {b : Byte} (hinv : TxInv s) (hbusy : s.txBusy = true)
    (hb : s.txBuf[s.txIdx.toNat]? = some b) : toSend s = b :: toSend (advanceTx s) := by
  obtain ⟨hidx, rfl⟩ := List.getElem?_eq_some_iff.1 hb
  have hnow : toSend s = s.txBuf[s.txIdx.toNat] :: s.txBuf.drop (s.txIdx.toNat + 1) := by
    rw [toSend, if_pos hbusy, List.drop_eq_getElem_cons hidx]
  rw [hnow, advanceTx]
  split
  · next hlast => simp [toSend, hlast]
  · simp only [toSend, hbusy, if_true, txIdx_succ_toNat hinv hbusy]

/-- Every operation but RESET keeps R19's invariant. -/
theorem exec_txInv {i : Instr} {s t : State} (h : exec i s = .next t) (hreset : i ≠ .reset)
    (hinv : TxInv s) : TxInv t := by
  cases i with
  | txSubmit r =>
    rcases execTxSubmit_cases h with ⟨_, rfl⟩ | ⟨_, _, rfl⟩ | ⟨hsize, _, rfl⟩
    · exact hinv
    · exact hinv
    · exact (loadFrame_framerInv hsize s).1
  | txEmit =>
    rcases execTxEmit_cases h with ⟨_, rfl⟩ | ⟨hbusy, _, _, rfl⟩
    · exact hinv
    · exact advanceTx_txInv hinv hbusy
  | reset => exact absurd rfl hreset
  | rxByte | rxPop | decode | extractInt | extractStr | csrRd | csrWr =>
    exact txInv_congr (exec_sameTx h hreset nofun nofun).1 hinv

theorem acceptedBytes_cons (i : Instr) (is : List Instr) :
    acceptedBytes (i :: is) = acceptedBytes [i] ++ acceptedBytes is := by
  cases i <;> simp [acceptedBytes]

/-- A rejected request puts nothing in the stream (R66). -/
theorem acceptedBytes_of_oversized {r : TxRequest} (hsize : 255 < r.data.length) :
    acceptedBytes [.txSubmit r] = [] := by
  rw [acceptedBytes, if_neg (Nat.not_le.2 hsize), acceptedBytes, List.append_nil]

/-- An accepted request puts its whole frame in the stream (R66). -/
theorem acceptedBytes_of_accepted {r : TxRequest} (hsize : r.data.length ≤ 255) :
    acceptedBytes [.txSubmit r] = frameBytes r := by
  rw [acceptedBytes, if_pos hsize, acceptedBytes, List.append_nil]

/-- One enabled operation adds to the outbound stream, sent and still to send, the frame it accepts (R66, R67). -/
theorem exec_stream {i : Instr} {s t : State} (h : exec i s = .next t) (hreset : i ≠ .reset)
    (hfree : held i s = false) (hinv : TxInv s) :
    t.txOut ++ toSend t = s.txOut ++ toSend s ++ acceptedBytes [i] := by
  cases i with
  | txSubmit r =>
    rcases execTxSubmit_cases h with ⟨hsize, rfl⟩ | ⟨hsize, hbusy, _⟩ | ⟨hsize, hidle, rfl⟩
    · rw [acceptedBytes_of_oversized hsize, List.append_nil]
      rfl
    · exact absurd ((txSubmitHeld_iff r s).2 ⟨hsize, hbusy⟩) (Bool.eq_false_iff.1 hfree)
    · rw [acceptedBytes_of_accepted hsize, toSend_of_idle hidle, List.append_nil,
        ← toSend_loadFrame r s]
      rfl
  | txEmit =>
    rcases execTxEmit_cases h with ⟨_, rfl⟩ | ⟨hbusy, b, hb, rfl⟩
    · simp [acceptedBytes]
    · obtain ⟨_, _, _, hout, _⟩ := advanceTx_frame s
      have hsame : toSend ((advanceTx s).emit b) = toSend (advanceTx s) := rfl
      simp [acceptedBytes, toSend_eq_cons hinv hbusy hb, hsame, hout]
  | reset => exact absurd rfl hreset
  | rxByte | rxPop | decode | extractInt | extractStr | csrRd | csrWr =>
    obtain ⟨htx, hout⟩ := exec_sameTx h hreset nofun nofun
    simp [acceptedBytes, toSend_congr htx, hout]

/-- Settles O19, by induction on the run: one operation adds the frame it accepts and keeps R19's invariant. -/
theorem outboundStreamIsConcatenation : Obligations.OutboundStreamIsConcatenation := by
  intro is
  induction is with
  | nil =>
    intro s t _ _ h
    cases h
    simp [acceptedBytes]
  | cons i is ih =>
    intro s t hinv hreset h
    obtain ⟨hi, his⟩ := List.ne_and_not_mem_of_not_mem_cons hreset
    obtain ⟨hfree, u, hu, hrest⟩ := runEnabled_cons_eq_some h
    calc t.txOut ++ toSend t
        = u.txOut ++ toSend u ++ acceptedBytes is := ih u t (exec_txInv hu hi.symm hinv) his hrest
      _ = s.txOut ++ toSend s ++ acceptedBytes [i] ++ acceptedBytes is := by
          rw [exec_stream hu hi.symm hfree hinv]
      _ = s.txOut ++ toSend s ++ acceptedBytes (i :: is) := by
          rw [acceptedBytes_cons i is, List.append_assoc]

/-! ### The holding register -/

/-- Settles O28: a CHK byte waits while the register is full, and any other byte leaves the register alone. -/
theorem deliveredFrameIsNeverOverwritten : Obligations.DeliveredFrameIsNeverOverwritten := by
  intro i s t hfull hpop hreset h
  have hout : SameOut s t := by
    by_cases hbyte : ∃ b, i = .rxByte b
    · obtain ⟨b, rfl⟩ := hbyte
      rcases exec_rxByte_cases h with ⟨_, _, rfl⟩ | ⟨hfree, rfl⟩
      · exact ⟨rfl, rfl⟩
      · exact (acceptByte_beforeChk b s fun hs => hfree ⟨hs, hfull⟩).1
    · exact exec_sameOut h hreset (fun b e => hbyte ⟨b, e⟩) hpop
  obtain ⟨hvalid, hframe⟩ := hout
  exact ⟨hvalid.trans hfull, hframe⟩

theorem waitingFrame_congr {s t : State} (hout : SameOut s t) : waitingFrame t = waitingFrame s := by
  obtain ⟨hvalid, hframe⟩ := hout
  simp only [waitingFrame, hvalid, hframe]

theorem waitingFrame_of_empty {s : State} (hempty : s.outValid = false) : waitingFrame s = [] := by
  simp [waitingFrame, hempty]

/-- RX_POP leaves the holding register empty (R75). -/
theorem exec_rxPop_outValid {s t : State} (h : exec .rxPop s = .next t) : t.outValid = false := by
  rcases execRxPop_cases h with ⟨hempty, rfl⟩ | ⟨_, rfl⟩
  · exact hempty
  · rfl

/-- One operation passes frames through the holding register: none is lost, none is taken twice (R72, R75). -/
theorem exec_waitingFrame {i : Instr} {s t : State} (h : exec i s = .next t) (hreset : i ≠ .reset) :
    waitingFrame s ++ deliveredBy i s t = poppedBy i s ++ waitingFrame t := by
  cases i with
  | rxByte b =>
    cases hfull : s.outValid with
    | true =>
      obtain ⟨hvalid, hframe⟩ := deliveredFrameIsNeverOverwritten (.rxByte b) s t hfull nofun hreset h
      simp [deliveredBy, poppedBy, hfull, waitingFrame_congr ⟨hvalid.trans hfull.symm, hframe⟩]
    | false => simp [deliveredBy, poppedBy, hfull, waitingFrame_of_empty hfull]
  | rxPop => simp [deliveredBy, poppedBy, waitingFrame_of_empty (exec_rxPop_outValid h)]
  | reset => exact absurd rfl hreset
  | txSubmit | txEmit | decode | extractInt | extractStr | csrRd | csrWr =>
    simp [deliveredBy, poppedBy, waitingFrame_congr (exec_sameOut h hreset nofun nofun)]

theorem deliveredFrames_cons {i : Instr} {s t : State} (h : exec i s = .next t) (is : List Instr) :
    deliveredFrames (i :: is) s = deliveredBy i s t ++ deliveredFrames is t := by
  simp [deliveredFrames, h]

theorem poppedFrames_cons {i : Instr} {s t : State} (h : exec i s = .next t) (is : List Instr) :
    poppedFrames (i :: is) s = poppedBy i s ++ poppedFrames is t := by
  simp [poppedFrames, h]

/-- Settles O29, by induction on the run: each operation passes frames through the holding register in order. -/
theorem framesArePoppedInArrivalOrder : Obligations.FramesArePoppedInArrivalOrder := by
  intro is
  induction is with
  | nil =>
    intro s t _ h
    cases h
    simp [deliveredFrames, poppedFrames]
  | cons i is ih =>
    intro s t hreset h
    obtain ⟨hi, his⟩ := List.ne_and_not_mem_of_not_mem_cons hreset
    obtain ⟨_, u, hu, hrest⟩ := runEnabled_cons_eq_some h
    calc waitingFrame s ++ deliveredFrames (i :: is) s
        = waitingFrame s ++ deliveredBy i s u ++ deliveredFrames is u := by
          rw [deliveredFrames_cons hu, List.append_assoc]
      _ = poppedBy i s ++ (waitingFrame u ++ deliveredFrames is u) := by
          rw [exec_waitingFrame hu hi.symm, List.append_assoc]
      _ = poppedBy i s ++ (poppedFrames is u ++ waitingFrame t) := by rw [ih u t his hrest]
      _ = poppedFrames (i :: is) s ++ waitingFrame t := by
          rw [poppedFrames_cons hu, List.append_assoc]

/-! ### Operations that only read -/

theorem addResponse_sameFrm (s : State) (r : Response) : SameFrm s (s.addResponse r) := by
  simp [SameFrm, SameTx, SameRx, SameOut, SameCsr]

/-- DECODE, EXTRACT_INT, EXTRACT_STR and CSR_RD answer HOST and do nothing else (R36). -/
theorem exec_eq_addResponse_of_reads {i : Instr} {s t : State} (h : exec i s = .next t)
    (hreads : (∃ buf, i = .decode buf) ∨ (∃ f n st, i = .extractInt f n st) ∨
      (∃ f st c, i = .extractStr f st c) ∨ ∃ idx, i = .csrRd idx) : ∃ r, t = s.addResponse r := by
  rcases hreads with ⟨buf, rfl⟩ | ⟨f, n, start, rfl⟩ | ⟨f, start, count, rfl⟩ | ⟨idx, rfl⟩
  · obtain ⟨r, e, _⟩ := execDecode_eq buf s
    rw [exec, e] at h
    cases h
    exact ⟨r, rfl⟩
  · obtain ⟨_, _, e⟩ := execExtractInt_cases h
    exact ⟨_, e⟩
  · obtain ⟨_, e⟩ := execExtractStr_cases h
    exact ⟨_, e⟩
  · rw [exec, execCsrRd_eq] at h
    cases h
    exact ⟨_, rfl⟩

/-- Settles O51: the readers only add a response, no register reads it, and RX_POP empties what it waits for. -/
theorem readsHaveNoSideEffects : Obligations.ReadsHaveNoSideEffects := by
  refine ⟨fun i s t h hreads => ?_, fun idx s t h => ?_, fun s t _ h => ?_⟩
  · obtain ⟨r, rfl⟩ := exec_eq_addResponse_of_reads h hreads
    exact ⟨addResponse_sameFrm s r, rfl, rfl⟩
  · obtain ⟨r, rfl⟩ := exec_eq_addResponse_of_reads h (.inr (.inr (.inr ⟨idx, rfl⟩)))
    rfl
  · exact exec_of_held (by simp [held, rxPopHeld, exec_rxPop_outValid h])

/-! ### TX_EMIT beside RX_BYTE -/

/-- The same state with what TX_EMIT writes at other values: `tx_busy`, `tx_idx` and what was sent (R67; log 5). -/
def State.setTx (s : State) (busy : Bool) (idx : BitVec 9) (sent : List Byte) : State :=
  { s with txBusy := busy, txIdx := idx, txOut := sent }

/-- TX_EMIT reads the TX side only: in every state with the same TX side it writes the same values (R67, R94). -/
theorem execTxEmit_setTx {s t : State} (h : execTxEmit s = .next t) :
    ∃ busy idx sent, ∀ u, SameTx s u → u.txOut = s.txOut →
      execTxEmit u = .next (u.setTx busy idx sent) := by
  rcases execTxEmit_cases h with ⟨hidle, _⟩ | ⟨hbusy, b, hb, _⟩
  · refine ⟨s.txBusy, s.txIdx, s.txOut, fun u ⟨hbusyEq, _, hidx⟩ hout => ?_⟩
    rw [← hbusyEq, ← hidx, ← hout]
    exact exec_of_held (i := .txEmit) (by simp [held, txEmitHeld, hbusyEq, hidle])
  · refine ⟨(advanceTx s).txBusy, (advanceTx s).txIdx, s.txOut ++ [b],
      fun u ⟨hbusyEq, hbuf, hidx⟩ hout => ?_⟩
    simp only [execTxEmit, txEmitHeld, advanceTx, hbusyEq, hbuf, hidx, hb, hbusy, ← hout]
    by_cases hlast : s.txIdx.toNat + 1 = s.txBuf.length
    · simp [hlast, State.emit, State.setTx, hbuf]
    · simp [hlast, State.emit, State.setTx, hbuf]

theorem acceptHunt_setTx (b : Byte) (s : State) (busy : Bool) (idx : BitVec 9) (sent : List Byte) :
    acceptHunt b (s.setTx busy idx sent) = (acceptHunt b s).setTx busy idx sent := by
  unfold acceptHunt
  split <;> rfl

theorem acceptChk_setTx (b : Byte) (s : State) (busy : Bool) (idx : BitVec 9) (sent : List Byte) :
    acceptChk b (s.setTx busy idx sent) = (acceptChk b s).setTx busy idx sent := by
  have hmatch : chkMatches b (s.setTx busy idx sent) = chkMatches b s := rfl
  have hen : (s.setTx busy idx sent).chkEn = s.chkEn := rfl
  rw [acceptChk, acceptChk, verifyFrame, verifyFrame, hmatch, hen]
  split <;> rfl

/-- The deframer accepts a byte alike whatever the TX side holds, and leaves that as it is (R94). -/
theorem acceptByte_setTx (b : Byte) (s : State) (busy : Bool) (idx : BitVec 9) (sent : List Byte) :
    acceptByte b (s.setTx busy idx sent) = (acceptByte b s).setTx busy idx sent := by
  have hst : (s.setTx busy idx sent).rxSt = s.rxSt := rfl
  rw [acceptByte, acceptByte, hst]
  cases s.rxSt with
  | hunt => exact acceptHunt_setTx b s busy idx sent
  | chk => exact acceptChk_setTx b s busy idx sent
  | sop2 | mrsp | seq | dlen | data => rfl

/-- RX_BYTE answers alike whatever the TX side holds, and leaves that as it is (R94). -/
theorem execRxByte_setTx {b : Byte} {s u : State} (h : execRxByte b s = .next u) (busy : Bool)
    (idx : BitVec 9) (sent : List Byte) :
    execRxByte b (s.setTx busy idx sent) = .next (u.setTx busy idx sent) := by
  have hheld : rxByteHeld (s.setTx busy idx sent) = rxByteHeld s := rfl
  rw [execRxByte, hheld, acceptByte_setTx]
  unfold execRxByte at h
  split at h
  · next hfull =>
    cases h
    exact if_pos hfull
  · next hfree =>
    cases h
    exact if_neg hfree

/-- Settles O54: TX_EMIT writes the same values before and after RX_BYTE, which neither reads nor writes them. -/
theorem transmitAndReceiveCommute : Obligations.TransmitAndReceiveCommute := by
  intro b s t u hemit hbyte
  obtain ⟨busy, idx, sent, hwrites⟩ := execTxEmit_setTx hemit
  obtain ⟨htx, hout⟩ := exec_sameTx hbyte nofun nofun nofun
  have ht : t = s.setTx busy idx sent := by
    have e := hemit.symm.trans (hwrites s ⟨rfl, rfl, rfl⟩ rfl)
    cases e
    rfl
  exact ⟨u.setTx busy idx sent, ht ▸ execRxByte_setTx hbyte busy idx sent, hwrites u htx hout⟩

end Machine

end Sys2Proof

/-! SUPPORT. The lemmas behind the encoding statements: which opcodes are reserved and how a step answers one, what an
operation adds to HOST's responses, where the fields of an outbound frame stand, and an accepted TX_SUBMIT. -/

namespace Sys2Proof

/-! ### Reserved opcodes -/

/-- The reserved opcodes are 0x0 and 0xB..0xF (R59). -/
theorem opNameOf_eq_none_iff :
    ∀ op : BitVec 4, opNameOf op = none ↔ op.toNat = 0 ∨ 0xB ≤ op.toNat := by
  decide

/-- A reserved opcode is rejected whatever the operands are (R59, R89). -/
theorem decodeOp_of_opNameOf_none {op : BitVec 4} (h : opNameOf op = none)
    (operands : List Operand) : decodeOp ⟨op, operands⟩ = .error (.reservedOpcode op) := by
  simp [decodeOp, h]

namespace Machine

open Sys2Proof.Safety

/-- With nothing waiting before it, a transaction with a reserved opcode is taken and is the fault (R59, R84). -/
theorem step_of_reserved_head {s : State} {t : Transaction} {later : List Transaction}
    {op : BitVec 4} (hs : s.pending = t :: later)
    (hd : decodeOp t = .error (.reservedOpcode op)) :
    step s = .fault (.illegalOp (.opcode op)) := by
  have hfree : mustWait [] t s = false := by
    rw [← Bool.not_eq_true, mustWait_iff_of_error hd]
    exact List.not_mem_nil
  simp [step, hs, pick_free hfree, hd, illegalOp]

/-! ### Responses -/

/-- An operation of HOST that answers a next state is held or gets one response; a port event gets none
(R55; log 4, log 5). -/
theorem exec_responses {i : Instr} {s t : State} (h : exec i s = .next t) :
    (agentOf i = .host ∧ (t = s ∨ ∃ r, t.responses = s.responses ++ [r])) ∨
    (agentOf i ≠ .host ∧ t.responses = s.responses) := by
  rcases exec_cases h with ⟨r, rfl, hsubmit⟩ | ⟨rfl, hemit⟩ | ⟨b, rfl, hbyte⟩ | ⟨rfl, hpop⟩ |
    ⟨buf, r, rfl, rfl, _⟩ | ⟨hreads, v, rfl⟩ | ⟨x, v, rfl, rfl⟩ | ⟨rfl, rfl⟩
  · refine .inl ⟨rfl, ?_⟩
    rcases hsubmit with ⟨_, rfl⟩ | ⟨_, _, e⟩ | ⟨_, _, rfl⟩
    · exact .inr ⟨_, rfl⟩
    · exact .inl e
    · exact .inr ⟨_, rfl⟩
  · refine .inr ⟨nofun, ?_⟩
    rcases hemit with ⟨_, rfl⟩ | ⟨_, b, _, rfl⟩
    · rfl
    · obtain ⟨_, _, _, _, hresponses, _⟩ := advanceTx_frame s
      exact hresponses
  · refine .inr ⟨nofun, ?_⟩
    rcases hbyte with ⟨_, _, rfl⟩ | ⟨_, rfl⟩
    · rfl
    · obtain ⟨_, _, _, _, hresponses, _⟩ := acceptByte_frame b s
      exact hresponses
  · refine .inl ⟨rfl, ?_⟩
    rcases hpop with ⟨_, e⟩ | ⟨_, rfl⟩
    · exact .inl e
    · exact .inr ⟨_, rfl⟩
  · exact .inl ⟨rfl, .inr ⟨r, rfl⟩⟩
  · have hhost : agentOf i = .host := by
      rcases hreads with ⟨_, _, _, rfl⟩ | ⟨_, _, _, rfl⟩ | ⟨_, rfl⟩ <;> rfl
    exact .inl ⟨hhost, .inr ⟨_, rfl⟩⟩
  · exact .inl ⟨rfl, .inr ⟨_, by rw [State.addResponse_responses, writeCsr_responses]⟩⟩
  · exact .inl ⟨rfl, .inr ⟨_, rfl⟩⟩

/-! ### The outbound frame -/

/-- The payload of an outbound frame begins at offset 6 (R45). -/
theorem frameBytes_payload (r : TxRequest) {k : Nat} (hk : k < r.data.length) :
    (frameBytes r)[6 + k]? = r.data[k]? := by
  rw [frameBytes, List.getElem?_append_left (by simp; omega),
    List.getElem?_append_right (by simp)]
  simp

/-- The checksum is the byte after the payload (R45). -/
theorem frameBytes_chk (r : TxRequest) :
    (frameBytes r)[6 + r.data.length]? = some (ckTx r.did r.cid r.seq r.data) := by
  have hlen : ([Config.sop1, r.flags, r.did, r.cid, r.seq, u8 r.data.length] ++ r.data).length =
      6 + r.data.length := List.length_append
  rw [frameBytes, ← hlen, List.getElem?_concat_length]

/-! ### TX_SUBMIT accepted, STATUS_CLR -/

/-- A request that fits, while the framer is idle, goes in flight and is answered (R66). -/
theorem execTxSubmit_of_idle {r : TxRequest} {s : State} (hsize : r.data.length ≤ 255)
    (hidle : s.txBusy = false) :
    execTxSubmit r s = .next ((loadFrame r s).addResponse (.ok .none)) := by
  simp [execTxSubmit, (tooLarge_eq_false r).2 hsize, txSubmitHeld, hidle, respond]

/-- The word STATUS_CLR writes has a 1 in the position of each sticky bit and clears both (R16, R62). -/
theorem writeCsr_statusClr (s : State) :
    writeCsr 0x01#8 0x00000018#32 s = { s with rxBadchk := false, txToobig := false } := by
  simp [writeCsr, w1c]

/-! ### The statements -/

/-- Settles O1. -/
theorem decoderInvertsEncoder : Obligations.DecoderInvertsEncoder :=
  ⟨decodeOp_encodeOp, fun _ _ => encodeOp_of_decodeOp⟩

/-- Settles O2: the decoder looks at the opcode first, and a transaction that does not decode never waits at the head. -/
theorem reservedOpcodeFaults : Obligations.ReservedOpcodeFaults := by
  intro op operands later s hop hs
  have hd := decodeOp_of_opNameOf_none ((opNameOf_eq_none_iff op).2 hop) operands
  exact ⟨hd, step_of_reserved_head hs hd⟩

/-- Settles O10: an operation that leaves the state as it was is held (O8), so an enabled one of HOST is answered. -/
theorem oneResponseForEachHostOperation : Obligations.OneResponseForEachHostOperation := by
  intro i s t h
  rcases exec_responses h with ⟨hhost, hanswer⟩ | ⟨hport, hsame⟩
  · refine ⟨fun _ henabled => hanswer.resolve_left ?_, fun hport => absurd hhost hport⟩
    rintro rfl
    simp [held_of_exec_eq_self h] at henabled
  · exact ⟨fun hhost => absurd hhost hport, fun _ => hsame⟩

/-- Settles O14: the six header bytes stand at the head of the list; DLEN is the payload length because that fits a byte. -/
theorem outboundFrameLayout : Obligations.OutboundFrameLayout := by
  intro r hsize
  have hdlen : (u8 r.data.length).toNat = r.data.length := by
    rw [u8_toNat]
    omega
  refine ⟨frameBytes_length r, ?_, ?_, rfl, rfl, rfl, rfl, rfl, ⟨_, rfl, hdlen⟩,
    fun k hk => frameBytes_payload r hk, frameBytes_chk r⟩
  · rw [frameBytes_length]
    omega
  · rw [frameBytes_length]
    omega

/-- Settles O3: each transaction is the encoding of the operation it stands for. -/
theorem writtenOperationsDecode : Obligations.WrittenOperationsDecode :=
  ⟨decodeOp_encodeOp (.csrWr _ _), decodeOp_encodeOp (.txSubmit ⟨_, _, _, _, _⟩),
    decodeOp_encodeOp .txEmit, decodeOp_encodeOp (.rxByte _), decodeOp_encodeOp .rxPop,
    decodeOp_encodeOp (.csrRd _), decodeOp_encodeOp .reset⟩

/-- Settles O48: TX_CMD is an accepted TX_SUBMIT without payload, STATUS_CLR a CSR_WR to STATUS. -/
theorem pseudoOperations : Obligations.PseudoOperations := by
  refine ⟨fun did cid seq s hidle => ?_, fun s => ?_⟩
  · exact execTxSubmit_of_idle (r := ⟨0x01#8, did, cid, seq, []⟩) (Nat.zero_le _) hidle
  · rw [Instr.statusClr, exec, execCsrWr_eq, writeCsr_statusClr]
    rfl

end Machine

end Sys2Proof

/-! SUPPORT. The lemmas behind the TX framer statements: the checksum at any width and over an outbound frame, what
TX_SUBMIT and TX_EMIT answer in each case, and a run of TX_EMIT steps. -/

namespace Sys2Proof

namespace Machine

open Sys2Proof.Safety

/-! ### The checksum at any width, and as a number -/

/-- A sum of bytes formed at a width of at least 8 bits has the low byte of the integer sum (R8, R63). -/
theorem setWidth_foldl_add {w : Nat} (hw : 8 ≤ w) (l : List Byte) (acc : BitVec w) :
    (l.foldl (fun acc b => acc + b.setWidth w) acc).setWidth 8 =
      acc.setWidth 8 + u8 (byteSum l) := by
  induction l generalizing acc with
  | nil => simp [u8]
  | cons b bs ih =>
    have hstep : (acc + b.setWidth w).setWidth 8 = acc.setWidth 8 + b := by
      rw [BitVec.setWidth_add _ _ hw, BitVec.setWidth_setWidth_of_le _ hw, BitVec.setWidth_eq]
    rw [List.foldl_cons, ih, hstep, byteSum_cons, u8_add, u8_byte_toNat, BitVec.add_assoc]

/-- The outbound checksum as a number: that `data_length + 1` is summed as a byte makes no difference (R63, R64). -/
theorem ckTx_toNat (did cid seq : Byte) (data : List Byte) :
    (ckTx did cid seq data).toNat =
      0xFF - (did.toNat + cid.toNat + seq.toNat + (data.length + 1) + byteSum data) % 256 := by
  rw [ckTx, ck8_toNat]
  simp only [byteSum_append, byteSum_cons, byteSum_nil, u8_toNat]
  omega

/-! ### The outbound frame, read back -/

/-- The bytes DID to CHK of an outbound frame, summed (R45, R65). -/
theorem byteSum_frameBytes_drop (r : TxRequest) :
    byteSum ((frameBytes r).drop 2) =
      r.did.toNat + r.cid.toNat + r.seq.toNat + r.data.length % 256 + byteSum r.data +
        (ckTx r.did r.cid r.seq r.data).toNat := by
  simp [frameBytes, Nat.add_assoc]

/-- The payload is what follows the six header bytes, less CHK (R45). -/
theorem take_drop_frameBytes (r : TxRequest) :
    ((frameBytes r).drop 6).take r.data.length = r.data :=
  List.take_left

/-! ### What TX_SUBMIT and TX_EMIT answer -/

/-- An oversized request is rejected, busy or not (R66). -/
theorem execTxSubmit_of_oversized {r : TxRequest} (hsize : 255 < r.data.length) (s : State) :
    execTxSubmit r s = .next (({ s with txToobig := true } : State).addResponse
      (.payloadTooLarge r.data.length)) :=
  if_pos ((tooLarge_iff r).2 hsize)

theorem txEmitHeld_iff (s : State) : txEmitHeld s = true ↔ s.txBusy = false := by
  simp [txEmitHeld]

theorem txEmitHeld_eq_false (s : State) : txEmitHeld s = false ↔ s.txBusy = true := by
  simp [txEmitHeld]

theorem rxPopHeld_iff (s : State) : rxPopHeld s = true ↔ s.outValid = false := by
  simp [rxPopHeld]

/-- A busy framer sends the byte at `tx_idx` (R67). -/
theorem execTxEmit_of_busy {s : State} {b : Byte} (hbusy : s.txBusy = true)
    (hb : s.txBuf[s.txIdx.toNat]? = some b) : execTxEmit s = .next ((advanceTx s).emit b) := by
  simp [execTxEmit, (txEmitHeld_eq_false s).2 hbusy, hb]

/-- A busy framer sends the first of the bytes still to be sent, and has one: `tx_idx` lies in `tx_buf` (R19, R67). -/
theorem exec_txEmit_sends {s : State} (hinv : TxInv s) (hbusy : s.txBusy = true) :
    ∃ b, exec .txEmit s = .next ((advanceTx s).emit b) ∧ toSend s = b :: toSend (advanceTx s) := by
  obtain ⟨_, _, hidx⟩ := hinv.1 hbusy
  have hb := List.getElem?_eq_getElem hidx
  exact ⟨_, execTxEmit_of_busy hbusy hb, toSend_eq_cons hinv hbusy hb⟩

/-! ### A run of TX_EMIT steps -/

/-- An enabled operation that answers a next state leaves the rest of the run to that state. -/
theorem runEnabled_cons_of_next {i : Instr} {s t : State} (hi : held i s = false)
    (h : exec i s = .next t) (is : List Instr) : runEnabled (i :: is) s = runEnabled is t := by
  simp [runEnabled, hi, h]

/-- A run ends at an operation that is held. -/
theorem runEnabled_cons_of_held {i : Instr} {s : State} (hi : held i s = true) (is : List Instr) :
    runEnabled (i :: is) s = none :=
  if_pos hi

/-- The framer is busy exactly while a byte is still to be sent (R19). -/
theorem txBusy_iff_toSend {s : State} (hinv : TxInv s) :
    s.txBusy = true ↔ 0 < (toSend s).length := by
  obtain ⟨hbounds, _⟩ := hinv
  cases hbusy : s.txBusy with
  | false => simp [toSend_of_idle hbusy]
  | true =>
    obtain ⟨_, _, hidx⟩ := hbounds hbusy
    rw [toSend, if_pos hbusy, List.length_drop]
    exact ⟨fun _ => Nat.sub_pos_of_lt hidx, fun _ => rfl⟩

/-- `k` TX_EMIT steps send the first `k` of the bytes still to be sent, and the others stay to be sent (R67). -/
theorem runEnabled_replicate_txEmit {k : Nat} {s : State} (hinv : TxInv s)
    (hk : k ≤ (toSend s).length) :
    ∃ t, runEnabled (List.replicate k .txEmit) s = some t ∧ TxInv t ∧
      t.txOut = s.txOut ++ (toSend s).take k ∧ toSend t = (toSend s).drop k := by
  induction k generalizing s with
  | zero => exact ⟨s, rfl, hinv, by simp, rfl⟩
  | succ k ih =>
    have hbusy : s.txBusy = true := (txBusy_iff_toSend hinv).2 (by omega)
    obtain ⟨b, hemit, hcons⟩ := exec_txEmit_sends hinv hbusy
    obtain ⟨_, _, _, hsent, _⟩ := advanceTx_frame s
    obtain ⟨t, hrun, ht, hout, hrest⟩ := ih (s := (advanceTx s).emit b)
      (advanceTx_txInv hinv hbusy) (by rw [hcons] at hk; exact Nat.le_of_succ_le_succ hk)
    refine ⟨t, ?_, ht, ?_, ?_⟩
    · have hfree : held .txEmit s = false := (txEmitHeld_eq_false s).2 hbusy
      rw [List.replicate_succ, runEnabled_cons_of_next hfree hemit, hrun]
    · rw [hout, hcons, List.take_succ_cons, State.emit_txOut, hsent, List.append_assoc]
      rfl
    · rw [hrest, hcons, List.drop_succ_cons]
      rfl

/-- An accepted request and `k` TX_EMIT steps: the first `k` bytes of its frame have left, and the framer is busy
exactly while that is not the whole frame (R66, R67). -/
theorem runEnabled_txSubmit_txEmits {r : TxRequest} {s : State} (hsize : r.data.length ≤ 255)
    (hidle : s.txBusy = false) {k : Nat} (hk : k ≤ 7 + r.data.length) :
    ∃ t, runEnabled (.txSubmit r :: List.replicate k .txEmit) s = some t ∧
      t.txOut = s.txOut ++ (frameBytes r).take k ∧ (t.txBusy = true ↔ k < 7 + r.data.length) := by
  have hfree : held (.txSubmit r) s = false :=
    Bool.eq_false_iff.2 fun h => by simp [((txSubmitHeld_iff r s).1 h).2] at hidle
  rw [runEnabled_cons_of_next hfree (execTxSubmit_of_idle hsize hidle)]
  have hframe : toSend ((loadFrame r s).addResponse (.ok .none)) = frameBytes r :=
    toSend_loadFrame r s
  obtain ⟨t, hrun, ht, hout, hrest⟩ := runEnabled_replicate_txEmit (k := k)
    (s := (loadFrame r s).addResponse (.ok .none)) (loadFrame_framerInv hsize s).1
    (by rwa [hframe, frameBytes_length])
  refine ⟨t, hrun, by rwa [hframe] at hout, ?_⟩
  rw [txBusy_iff_toSend ht, hrest, hframe, List.length_drop, frameBytes_length, Nat.sub_pos_iff_lt]

/-! ### The statements -/

/-- Settles O12: cutting a sum down to 8 bits commutes with each of its additions. -/
theorem checksumIsTheSameAtAnyWidth : Obligations.ChecksumIsTheSameAtAnyWidth := by
  intro l
  refine ⟨ck8_toNat l, fun w hw => ?_⟩
  rw [setWidth_foldl_add hw, BitVec.setWidth_zero, BitVec.zero_add, ck8]

/-- Settles O15: CHK complements a sum that is one more than that of the bytes DID to the end of the payload. -/
theorem outboundChecksumRoundTrip : Obligations.OutboundChecksumRoundTrip := by
  intro r hsize
  refine ⟨?_, fun did cid seq dlen hdid hcid hseq hdlen => ?_⟩
  · rw [byteSum_frameBytes_drop, ckTx_toNat]
    omega
  · obtain rfl : r.did = did := Option.some.inj hdid
    obtain rfl : r.cid = cid := Option.some.inj hcid
    obtain rfl : r.seq = seq := Option.some.inj hseq
    obtain rfl : u8 r.data.length = dlen := Option.some.inj hdlen
    rw [u8_toNat, Nat.mod_eq_of_lt (by omega), take_drop_frameBytes, frameBytes_chk]

/-- Settles O18: the whole frame leaves the framer idle, and there a further TX_EMIT is held. -/
theorem acceptedFrameLeavesWhole : Obligations.AcceptedFrameLeavesWhole := by
  intro r s hsize hidle
  refine ⟨fun k hk => runEnabled_txSubmit_txEmits hsize hidle hk, ?_⟩
  obtain ⟨t, hrun, _, hbusy⟩ := runEnabled_txSubmit_txEmits hsize hidle (Nat.le_refl _)
  have hidle' : t.txBusy = false := Bool.eq_false_iff.2 fun h => Nat.lt_irrefl _ (hbusy.1 h)
  have hheld : held .txEmit t = true := (txEmitHeld_iff t).2 hidle'
  rw [show 8 + r.data.length = 7 + r.data.length + 1 by omega, List.replicate_succ',
    ← List.cons_append, runEnabled_append, hrun]
  exact runEnabled_cons_of_held hheld []

/-- Settles O9: the four conditions of R66, R67, R72 and R75; the other six operations are never held. -/
theorem operationsHoldExactlyWhere : Obligations.OperationsHoldExactlyWhere := by
  intro i s
  cases i with
  | txSubmit r => simp [held, txSubmitHeld_iff]
  | txEmit => simp [held, txEmitHeld_iff]
  | rxByte b => simp [held, rxByteHeld_iff]
  | rxPop => simp [held, rxPopHeld_iff]
  | decode | extractInt | extractStr | csrRd | csrWr | reset => simp [held]

/-- Settles O13: the formula is the definition of ck_tx; the source's vector is computed. -/
theorem outboundChecksumFormula : Obligations.OutboundChecksumFormula :=
  ⟨fun did cid seq data => ⟨rfl, ckTx_toNat did cid seq data⟩, by decide⟩

/-- Settles O16: one lemma for each of the three outcomes. -/
theorem txSubmitOutcomes : Obligations.TxSubmitOutcomes := by
  intro r s
  refine ⟨fun hsize => ?_, fun hsize hbusy => ?_, fun hsize hidle => ?_⟩
  · exact execTxSubmit_of_oversized hsize s
  · exact exec_of_held ((txSubmitHeld_iff r s).2 ⟨hsize, hbusy⟩)
  · exact execTxSubmit_of_idle hsize hidle

/-- Settles O17: the byte sent is the last exactly if `tx_idx` stands at the end of `tx_buf`. -/
theorem txEmitOutcomes : Obligations.TxEmitOutcomes := by
  intro s
  refine ⟨fun hidle => exec_of_held ((txEmitHeld_iff s).2 hidle), fun b hbusy hb => ?_⟩
  have hemit : exec .txEmit s = .next ((advanceTx s).emit b) := execTxEmit_of_busy hbusy hb
  refine ⟨fun hlast => ?_, fun hmore => ?_⟩
  · rw [hemit, advanceTx, if_pos hlast]
    rfl
  · rw [hemit, advanceTx, if_neg hmore]
    rfl

end Machine

end Sys2Proof

/-! SUPPORT. The lemmas behind the RX deframer statements: what RX_BYTE and DECODE answer in each case, the deframer
inside the payload of a frame, and a run of RX_BYTE steps over a whole inbound frame. -/

namespace Sys2Proof

namespace Machine

open Sys2Proof.Safety

/-! ### What RX_BYTE answers -/

theorem rxByteHeld_eq_false (s : State) :
    rxByteHeld s = false ↔ ¬ (s.rxSt = .chk ∧ s.outValid = true) := by
  rw [← rxByteHeld_iff, Bool.not_eq_true]

/-- Where it is not held, RX_BYTE has the deframer accept the byte (R70, R72). -/
theorem exec_rxByte_of_free {s : State} (hfree : ¬ (s.rxSt = .chk ∧ s.outValid = true)) (b : Byte) :
    exec (.rxByte b) s = .next (acceptByte b s) :=
  if_neg fun hheld => hfree ((rxByteHeld_iff s).1 hheld)

/-- Up to the CHK byte RX_BYTE is never held (R72). -/
theorem exec_rxByte_of_ne_chk {s : State} (hs : s.rxSt ≠ .chk) (b : Byte) :
    exec (.rxByte b) s = .next (acceptByte b s) :=
  exec_rxByte_of_free (fun h => hs h.1) b

/-- A matching CHK byte delivers the frame (R71). -/
theorem acceptChk_of_match {b : Byte} {s : State} (hb : b = ~~~ s.rxSum) :
    acceptChk b s =
      { s with
        outFrame := ⟨s.rxSop2, s.rxMrsp, s.rxSeq, s.rxDlen, s.rxPay, true, b, true⟩
        outValid := true, rxPay := [], rxSt := .hunt } := by
  simp [acceptChk, verifyFrame, completedFrame, chkMatches, hb]

/-- A mismatched CHK byte is recorded, and delivers the frame while CHK_EN = 0 (R71). -/
theorem acceptChk_of_mismatch_unchecked {b : Byte} {s : State} (hb : b ≠ ~~~ s.rxSum)
    (hen : s.chkEn = false) :
    acceptChk b s =
      { s with
        rxBadchk := true
        outFrame := ⟨s.rxSop2, s.rxMrsp, s.rxSeq, s.rxDlen, s.rxPay, true, b, false⟩
        outValid := true, rxPay := [], rxSt := .hunt } := by
  simp [acceptChk, verifyFrame, completedFrame, chkMatches, hb, hen]

/-- A mismatched CHK byte is recorded, and discards the frame while CHK_EN = 1 (R71). -/
theorem acceptChk_of_mismatch_checked {b : Byte} {s : State} (hb : b ≠ ~~~ s.rxSum)
    (hen : s.chkEn = true) :
    acceptChk b s =
      { s with
        rxBadchk := true, rxDropCnt := s.rxDropCnt + 1#32, rxPay := [], rxSt := .hunt } := by
  simp [acceptChk, verifyFrame, chkMatches, hb, hen]

/-- Only a start marker, taken while hunting, leads to SOP2 (R69, R70). -/
theorem acceptByte_rxSt_ne_sop2 (b : Byte) {s : State} (hs : s.rxSt ≠ .hunt) :
    (acceptByte b s).rxSt ≠ .sop2 := by
  cases hst : s.rxSt with
  | hunt => exact absurd hst hs
  | dlen =>
    simp only [acceptByte, hst, acceptDlen]
    split <;> nofun
  | data =>
    simp only [acceptByte, hst, acceptData]
    split <;> nofun
  | sop2 | mrsp | seq | chk => simp [acceptByte, hst, acceptSop2, acceptMrsp, acceptSeq, acceptChk]

/-- A frame that is in the holding register after a byte with CHK_EN = 1 was there before, or its CHK matches (R71). -/
theorem acceptByte_delivers_matching (b : Byte) {s : State} (hen : s.chkEn = true) :
    SameOut s (acceptByte b s) ∨ (acceptByte b s).outFrame.chkOk = true := by
  by_cases hs : s.rxSt = .chk
  · have haccept : acceptByte b s = acceptChk b s := by simp only [acceptByte, hs]
    rw [haccept]
    rcases acceptChk_cases b s with ⟨hb | hoff, e⟩ | ⟨_, _, e⟩
    · exact .inr (by simp [e, completedFrame, chkMatches, ← hb])
    · simp [hen] at hoff
    · exact .inl (by rw [e]; exact ⟨rfl, rfl⟩)
  · exact .inl (acceptByte_beforeChk b s hs).1

/-! ### The inbound checksum as a number -/

/-- The inbound checksum as a number: that `data_length + 1` is summed as a byte makes no difference (R63, R68). -/
theorem ckRx_toNat (mrsp seq : Byte) (data : List Byte) :
    (ckRx mrsp seq data).toNat =
      0xFF - (mrsp.toNat + seq.toNat + (data.length + 1) + byteSum data) % 256 := by
  rw [ckRx, ck8_toNat]
  simp only [byteSum_append, byteSum_cons, byteSum_nil, u8_toNat]
  omega

/-! ### A buffer laid out as an inbound frame -/

/-- A buffer with a byte at offset 4 is a start byte, the four header fields and a rest (R49). -/
theorem eq_header_append {buf : List Byte} {sop2 mrsp seq n : Byte} (h1 : buf[1]? = some sop2)
    (h2 : buf[2]? = some mrsp) (h3 : buf[3]? = some seq) (h4 : buf[4]? = some n) :
    ∃ b, buf = b :: sop2 :: mrsp :: seq :: n :: buf.drop 5 := by
  match buf with
  | b :: _ :: _ :: _ :: _ :: rest =>
    cases h1; cases h2; cases h3; cases h4
    exact ⟨b, rfl⟩

/-- A buffer with a byte at the CHK position is a header, a whole payload, that byte and a rest (R49). -/
theorem eq_header_payload_append {buf : List Byte} {sop2 mrsp seq n c : Byte}
    (h1 : buf[1]? = some sop2) (h2 : buf[2]? = some mrsp) (h3 : buf[3]? = some seq)
    (h4 : buf[4]? = some n) (hc : buf[5 + n.toNat]? = some c) :
    ((buf.drop 5).take n.toNat).length = n.toNat ∧
      ∃ b more, buf = b :: sop2 :: mrsp :: seq :: n :: ((buf.drop 5).take n.toNat ++ c :: more) := by
  obtain ⟨b, hbuf⟩ := eq_header_append h1 h2 h3 h4
  obtain ⟨hpos, hget⟩ := List.getElem?_eq_some_iff.1 (List.getElem?_drop.trans hc)
  refine ⟨List.length_take_of_le (Nat.le_of_lt hpos), b, (buf.drop 5).drop (n.toNat + 1), ?_⟩
  rw [← hget, ← List.drop_eq_getElem_cons hpos, List.take_append_drop]
  exact hbuf

theorem parseFrame_of_shortPayload (b sop2 mrsp seq : Byte) {n : Byte} {rest : List Byte}
    (h : rest.length < n.toNat) : parseFrame (b :: sop2 :: mrsp :: seq :: n :: rest) = none := by
  simp [parseFrame, h]

/-- A buffer that ends with the payload is a frame without CHK (R76). -/
theorem parseFrame_withoutChk (b sop2 mrsp seq : Byte) {n : Byte} {data : List Byte}
    (h : data.length = n.toNat) :
    parseFrame (b :: sop2 :: mrsp :: seq :: n :: data) =
      some ⟨sop2, mrsp, seq, n, data, false, 0x00#8, false⟩ := by
  simp [parseFrame, ← h]

/-- A buffer that goes on after the payload is a frame with its CHK, whatever follows that (R76). -/
theorem parseFrame_withChk (b sop2 mrsp seq c : Byte) {n : Byte} {data : List Byte}
    (h : data.length = n.toNat) (more : List Byte) :
    parseFrame (b :: sop2 :: mrsp :: seq :: n :: (data ++ c :: more)) =
      some ⟨sop2, mrsp, seq, n, data, true, c, c == ckRx mrsp seq data⟩ := by
  simp [parseFrame, ← h]

theorem exec_decode_of_none {buf : List Byte} (h : parseFrame buf = none) (s : State) :
    exec (.decode buf) s = .next (s.addResponse (.malformedFrame buf.length)) := by
  simp [exec, execDecode, h, raiseError]

theorem exec_decode_of_some {buf : List Byte} {f : RxFrame} (h : parseFrame buf = some f)
    (s : State) : exec (.decode buf) s = .next (s.addResponse (.ok (.frame f))) := by
  simp [exec, execDecode, h, respond]

/-! ### The deframer inside a frame -/

@[simp] theorem runEnabled_deliverBytes_nil (s : State) : runEnabled (deliverBytes []) s = some s := rfl

/-- RX_BYTE steps begin with one that is accepted, where it is not held. -/
theorem runEnabled_deliverBytes_cons {s : State} (hfree : ¬ (s.rxSt = .chk ∧ s.outValid = true))
    (b : Byte) (bs : List Byte) :
    runEnabled (deliverBytes (b :: bs)) s = runEnabled (deliverBytes bs) (acceptByte b s) :=
  runEnabled_cons_of_next (i := .rxByte b) ((rxByteHeld_eq_false s).2 hfree)
    (exec_rxByte_of_free hfree b) _

theorem deliverBytes_append (as bs : List Byte) :
    deliverBytes (as ++ bs) = deliverBytes as ++ deliverBytes bs :=
  List.map_append

/-- The state `s` turns into once a header with these fields and the bytes `pay` of the payload are in (R70). -/
def payloadState (s : State) (sop2 mrsp seq dlen : Byte) (pay : List Byte) : State :=
  { s with
    rxSop2 := sop2, rxMrsp := mrsp, rxSeq := seq, rxDlen := dlen, rxPay := pay
    rxSum := mrsp + seq + dlen + 1#8 + u8 (byteSum pay)
    rxSt := if pay.length = dlen.toNat then .chk else .data }

theorem payloadState_rxSt_ne_hunt (s : State) (sop2 mrsp seq dlen : Byte) (pay : List Byte) :
    (payloadState s sop2 mrsp seq dlen pay).rxSt ≠ .hunt := by
  simp only [payloadState]
  split <;> nofun

/-- Once the whole payload is in, the CHK byte comes next (R70). -/
theorem payloadState_rxSt_of_whole (s : State) (sop2 mrsp seq : Byte) {dlen : Byte} {pay : List Byte}
    (h : pay.length = dlen.toNat) : (payloadState s sop2 mrsp seq dlen pay).rxSt = .chk :=
  if_pos h

/-- Once the whole payload is in, the running sum is the complement of the inbound checksum (R68, R71). -/
theorem payloadState_not_rxSum (s : State) (sop2 mrsp seq : Byte) {dlen : Byte} {pay : List Byte}
    (h : pay.length = dlen.toNat) :
    ~~~ (payloadState s sop2 mrsp seq dlen pay).rxSum = ckRx mrsp seq pay := by
  have hst := payloadState_rxSt_of_whole s sop2 mrsp seq h
  have hsum := (wholeSum_eq (payloadState s sop2 mrsp seq dlen pay)).symm
  exact not_rxSum_eq_ckRx (rxInv_of_chk hst h hsum) hst

/-- A header with start marker, taken while hunting, leaves the payload to come (R69, R70). -/
theorem runEnabled_header {s : State} (hs : s.rxSt = .hunt) (sop2 mrsp seq dlen : Byte)
    (bs : List Byte) :
    runEnabled (deliverBytes (0xFF#8 :: sop2 :: mrsp :: seq :: dlen :: bs)) s =
      runEnabled (deliverBytes bs) (payloadState s sop2 mrsp seq dlen []) := by
  have hzero : 0 = dlen.toNat ↔ dlen = 0#8 := by bv_omega
  simp [runEnabled_deliverBytes_cons, acceptByte, hs, acceptHunt, acceptSop2, acceptMrsp, acceptSeq,
    acceptDlen, payloadState, hzero, u8]

/-- A byte taken before the payload is whole goes to its end (R70). -/
theorem acceptByte_payloadState (s : State) (sop2 mrsp seq : Byte) {dlen : Byte} {pay : List Byte}
    (h : pay.length < dlen.toNat) (b : Byte) :
    acceptByte b (payloadState s sop2 mrsp seq dlen pay) =
      payloadState s sop2 mrsp seq dlen (pay ++ [b]) := by
  simp [acceptByte, payloadState, acceptData, Nat.ne_of_lt h, u8_add, BitVec.add_assoc]

/-- Payload bytes taken while the payload is not whole go to its end, one by one (R70). -/
theorem runEnabled_payload (s : State) (sop2 mrsp seq : Byte) {dlen : Byte} {pay data : List Byte}
    (h : pay.length + data.length ≤ dlen.toNat) :
    runEnabled (deliverBytes data) (payloadState s sop2 mrsp seq dlen pay) =
      some (payloadState s sop2 mrsp seq dlen (pay ++ data)) := by
  induction data generalizing pay with
  | nil => simp
  | cons b bs ih =>
    have hpay : pay.length < dlen.toNat := by rw [List.length_cons] at h; omega
    have hfree : (payloadState s sop2 mrsp seq dlen pay).rxSt ≠ .chk := by
      simp [payloadState, Nat.ne_of_lt hpay]
    rw [runEnabled_deliverBytes_cons (fun hheld => hfree hheld.1),
      acceptByte_payloadState s sop2 mrsp seq hpay, ih (by simp at h ⊢; omega), List.append_assoc]
    rfl

/-- An inbound frame up to its CHK byte, taken while hunting, or up to a byte of its payload (R49, R70). -/
theorem runEnabled_headerPayload {s : State} (hs : s.rxSt = .hunt) (sop2 mrsp seq : Byte) {dlen : Byte}
    {pay : List Byte} (h : pay.length ≤ dlen.toNat) :
    runEnabled (deliverBytes (0xFF#8 :: sop2 :: mrsp :: seq :: dlen :: pay)) s =
      some (payloadState s sop2 mrsp seq dlen pay) := by
  rw [runEnabled_header hs]
  exact runEnabled_payload s sop2 mrsp seq (pay := []) (by simpa using h)

/-- A whole inbound frame, taken while hunting with the holding register empty, ends at its CHK byte (R49, R73). -/
theorem runEnabled_inboundFrame {s : State} (hs : s.rxSt = .hunt) (hempty : s.outValid = false)
    (sop2 mrsp seq c : Byte) {data : List Byte} (hlen : data.length = (u8 data.length).toNat) :
    runEnabled (deliverBytes (inboundBody sop2 mrsp seq data ++ [c])) s =
      some (acceptChk c (payloadState s sop2 mrsp seq (u8 data.length) data)) := by
  have hbody : runEnabled (deliverBytes (inboundBody sop2 mrsp seq data)) s =
      some (payloadState s sop2 mrsp seq (u8 data.length) data) :=
    runEnabled_headerPayload hs sop2 mrsp seq (Nat.le_of_eq hlen)
  have hfree : (payloadState s sop2 mrsp seq (u8 data.length) data).outValid ≠ true := by
    simp [payloadState, hempty]
  rw [deliverBytes_append, runEnabled_append, hbody, Option.bind_some,
    runEnabled_deliverBytes_cons (fun hheld => hfree hheld.2), runEnabled_deliverBytes_nil,
    acceptByte, payloadState_rxSt_of_whole s sop2 mrsp seq hlen]

/-- The first bytes of an inbound frame, short of its CHK byte, leave the deframer inside the frame (R49, R70). -/
theorem runEnabled_inboundBody_take {s : State} (hs : s.rxSt = .hunt) (sop2 mrsp seq : Byte)
    {data : List Byte} (hlen : data.length = (u8 data.length).toNat) {k : Nat} (hk : 0 < k) :
    ∃ t, runEnabled (deliverBytes ((inboundBody sop2 mrsp seq data).take k)) s = some t ∧
      t.rxSt ≠ .hunt ∧ t.outValid = s.outValid := by
  match k with
  | 1 | 2 | 3 | 4 =>
    simp [inboundBody, runEnabled_deliverBytes_cons, acceptByte, hs, acceptHunt, acceptSop2,
      acceptMrsp, acceptSeq]
  | k + 5 =>
    have hpay : (data.take k).length ≤ (u8 data.length).toNat :=
      hlen ▸ List.length_take_le' k data
    exact ⟨_, runEnabled_headerPayload hs sop2 mrsp seq hpay,
      payloadState_rxSt_ne_hunt s sop2 mrsp seq _ _, rfl⟩

/-! ### The statements -/

/-- Settles O26: the header is taken field by field, the payload by induction, and the CHK byte meets the complement of
the running sum, which is the inbound checksum. -/
theorem inboundFrameIsConsumedWhole : Obligations.InboundFrameIsConsumedWhole := by
  intro sop2 mrsp seq c data s hmax hs hempty bs good
  have hlen : data.length = (u8 data.length).toNat := by rw [u8_toNat]; omega
  have hbody : (inboundBody sop2 mrsp seq data).length = 5 + data.length := by
    simp [inboundBody]; omega
  have hbs : bs.length = 6 + data.length := by
    rw [List.length_append, hbody, List.length_singleton]; omega
  refine ⟨hbs, fun k hk hlt => ?_, _, runEnabled_inboundFrame hs hempty sop2 mrsp seq c hlen, ?_⟩
  · obtain ⟨t, hrun, hst, hvalid⟩ := runEnabled_inboundBody_take hs sop2 mrsp seq hlen hk
    have htake : bs.take k = (inboundBody sop2 mrsp seq data).take k :=
      List.take_append_of_le_length (by omega)
    exact ⟨t, htake ▸ hrun, hst, hvalid.trans hempty⟩
  · have hsum := payloadState_not_rxSum s sop2 mrsp seq hlen
    by_cases hc : c = ckRx mrsp seq data
    · have hgood : good = true := beq_iff_eq.2 hc
      rw [acceptChk_of_match (hc.trans hsum.symm), hgood]
      exact ⟨rfl, rfl, rfl, (Bool.or_false _).symm, fun _ => ⟨rfl, rfl, rfl⟩, nofun⟩
    · have hgood : good = false := beq_eq_false_iff_ne.2 hc
      have hmismatch := hsum ▸ hc
      rw [hgood]
      cases hen : s.chkEn with
      | false =>
        rw [acceptChk_of_mismatch_unchecked hmismatch hen]
        exact ⟨rfl, rfl, rfl, (Bool.or_true _).symm, fun _ => ⟨rfl, rfl, rfl⟩, nofun⟩
      | true =>
        rw [acceptChk_of_mismatch_checked hmismatch hen]
        exact ⟨rfl, rfl, rfl, (Bool.or_true _).symm, nofun, fun _ _ => ⟨hempty, rfl⟩⟩

/-- Settles O27: both split the buffer into the same fields, and by O26 the deframer delivers the frame made of them. -/
theorem deframerAgreesWithDecode : Obligations.DeframerAgreesWithDecode := by
  intro buf n s h0 h4 hwhole hs hempty hchk
  have hbyte : ∀ k < buf.length, ∃ b, buf[k]? = some b := fun k hk =>
    ⟨_, List.getElem?_eq_getElem hk⟩
  obtain ⟨sop2, h1⟩ := hbyte 1 (by omega)
  obtain ⟨mrsp, h2⟩ := hbyte 2 (by omega)
  obtain ⟨seq, h3⟩ := hbyte 3 (by omega)
  obtain ⟨c, hc⟩ := hbyte (5 + n.toNat) (by omega)
  obtain ⟨hlen, b, more, hbuf⟩ := eq_header_payload_append h1 h2 h3 h4 hc
  rw [List.getD_eq_getElem?_getD, List.getD_eq_getElem?_getD, h2, h3, hc] at hchk
  generalize (buf.drop 5).take n.toNat = data at hlen hbuf hchk
  subst hbuf
  obtain rfl : b = 0xFF#8 := Option.some.inj h0
  obtain rfl : n = u8 data.length := by rw [hlen, u8_byte_toNat]
  have hmax : data.length ≤ 255 := by rw [hlen]; exact Nat.le_of_lt_succ (BitVec.isLt _)
  have hgood : (c == ckRx mrsp seq data) = true ∨ s.chkEn = false :=
    hchk.symm.imp_left fun h => beq_iff_eq.2 (Option.some.inj h)
  obtain ⟨hframe, _, t, hrun, _, _, _, _, hdeliver, _⟩ :=
    inboundFrameIsConsumedWhole sop2 mrsp seq c data s hmax hs hempty
  obtain ⟨hvalid, _, hout⟩ := hdeliver hgood
  have hsplit : 0xFF#8 :: sop2 :: mrsp :: seq :: u8 data.length :: (data ++ c :: more) =
      inboundBody sop2 mrsp seq data ++ [c] ++ more := by
    simp [inboundBody]
  have htake := List.take_left' (l₂ := more) (hframe.trans (congrArg (6 + ·) hlen))
  rw [← hsplit] at htake
  refine ⟨t, htake.symm ▸ hrun, hvalid, ?_⟩
  rw [hout]
  exact exec_decode_of_some (parseFrame_withChk _ sop2 mrsp seq c hlen more) s

/-- Settles O25, as the invariant of the deframer was shown to say. -/
theorem runningSumIsTheInboundChecksum : Obligations.RunningSumIsTheInboundChecksum :=
  fun _ hinv hs => not_rxSum_eq_ckRx hinv hs

/-- Settles O31: the buffer is its five header bytes and a rest, which ends before, with or after the payload. -/
theorem decodeOutcomes : Obligations.DecodeOutcomes := by
  intro buf s
  refine ⟨fun hshort => exec_decode_of_none (parseFrame_shortHeader buf hshort) s, ?_⟩
  intro sop2 mrsp seq n h1 h2 h3 h4 data
  obtain ⟨b, hbuf⟩ := eq_header_append h1 h2 h3 h4
  have hrest : (buf.drop 5).length = buf.length - 5 := List.length_drop
  obtain ⟨hheader, _⟩ := List.getElem?_eq_some_iff.1 h4
  refine ⟨fun hshort => exec_decode_of_none ?_ s, fun hexact => exec_decode_of_some ?_ s,
    fun c hc => exec_decode_of_some ?_ s⟩
  · rw [hbuf]
    exact parseFrame_of_shortPayload b sop2 mrsp seq (by omega)
  · have hdata : data = buf.drop 5 := List.take_of_length_le (by omega)
    rw [hdata, congrArg parseFrame hbuf]
    exact parseFrame_withoutChk b sop2 mrsp seq (by omega)
  · obtain ⟨hlen, b, more, hbuf⟩ := eq_header_payload_append h1 h2 h3 h4 hc
    rw [congrArg parseFrame hbuf]
    exact parseFrame_withChk b sop2 mrsp seq c hlen more

/-- Settles O32: only RX_BYTE fills the holding register. -/
theorem validationDeliversOnlyMatchingFrames :
    Obligations.ValidationDeliversOnlyMatchingFrames := by
  intro i s t hen hwaiting h hvalid
  have hsame : SameOut s t → t.outFrame.chkOk = true := fun ⟨hvalidEq, hframe⟩ =>
    hframe ▸ hwaiting (hvalidEq ▸ hvalid)
  cases i with
  | rxByte b =>
    rcases exec_rxByte_cases h with ⟨_, _, rfl⟩ | ⟨_, rfl⟩
    · exact hsame ⟨rfl, rfl⟩
    · exact (acceptByte_delivers_matching b hen).elim hsame id
  | rxPop => simp [exec_rxPop_outValid h] at hvalid
  | reset => simp [exec_reset_eq h] at hvalid
  | txSubmit | txEmit | decode | extractInt | extractStr | csrRd | csrWr =>
    exact hsame (exec_sameOut h nofun nofun nofun)

/-- Settles O20: inside a frame no byte is noise, and none leads back to SOP2. -/
theorem huntFindsMarkerOrCountsNoise : Obligations.HuntFindsMarkerOrCountsNoise := by
  intro b s
  refine ⟨fun hs hb => ?_, fun hs hb => ?_, fun hs t h => ?_⟩
  · rw [exec_rxByte_of_ne_chk (by simp [hs])]
    simp [acceptByte, hs, acceptHunt, hb]
  · rw [exec_rxByte_of_ne_chk (by simp [hs])]
    simp [acceptByte, hs, acceptHunt, hb]
  · rcases exec_rxByte_cases h with ⟨hchk, _, rfl⟩ | ⟨_, rfl⟩
    · exact ⟨rfl, by simp [hchk]⟩
    · exact ⟨by simp [acceptByte_rxNoiseCnt, hs], acceptByte_rxSt_ne_sop2 b hs⟩

/-- Settles O21: none of these states holds, and a sum of bytes is the byte of their integer sum. -/
theorem byteIsTheFieldItsPositionNames : Obligations.ByteIsTheFieldItsPositionNames := by
  intro b s
  have hsum : u8 (s.rxSum.toNat + b.toNat) = s.rxSum + b := by
    rw [u8_add, u8_byte_toNat, u8_byte_toNat]
  have hsum1 : u8 (s.rxSum.toNat + b.toNat + 1) = s.rxSum + b + 1#8 := by
    rw [u8_add, hsum]
    rfl
  refine ⟨fun hs => ?_, fun hs => ?_, fun hs => ?_, fun hs hb => ?_, fun hs hb => ?_,
    fun hs hlast => ?_, fun hs hmore => ?_⟩
  all_goals rw [exec_rxByte_of_ne_chk (by simp [hs])]
  · simp [acceptByte, hs, acceptSop2]
  · simp [acceptByte, hs, acceptMrsp]
  · simp [acceptByte, hs, acceptSeq, hsum]
  · rw [hsum1]
    simp [acceptByte, hs, acceptDlen, hb]
  · rw [hsum1]
    simp [acceptByte, hs, acceptDlen, hb]
  · simp [acceptByte, hs, acceptData, hlast, hsum]
  · simp [acceptByte, hs, acceptData, hmore, hsum]

/-- Settles O22: one lemma for each of the three outcomes. -/
theorem chkByteVerifiesAndStrips : Obligations.ChkByteVerifiesAndStrips := by
  intro b s hs hempty
  have hexec : exec (.rxByte b) s = .next (acceptChk b s) := by
    rw [exec_rxByte_of_free (by simp [hempty]), acceptByte, hs]
  refine ⟨fun hb => ?_, fun hb hen => ?_, fun hb hen => ?_⟩
  · rw [hexec, acceptChk_of_match hb]
  · rw [hexec, acceptChk_of_mismatch_unchecked hb hen]
  · rw [hexec, acceptChk_of_mismatch_checked hb hen]

/-- Settles O23: an accepted byte changes the state, and a waiting frame is never overwritten (O28). -/
theorem rxByteHoldsOnlyAtAFullChk : Obligations.RxByteHoldsOnlyAtAFullChk := by
  intro b s
  refine ⟨fun hfull => exec_of_held ((rxByteHeld_iff s).2 hfull),
    fun hfree => ⟨_, exec_rxByte_of_free hfree b, acceptByte_ne b s⟩, fun t hvalid h => ?_⟩
  exact deliveredFrameIsNeverOverwritten (.rxByte b) s t hvalid nofun nofun h

/-- Settles O24: the rule's example is computed. -/
theorem inboundChecksumFormula : Obligations.InboundChecksumFormula :=
  ⟨ckRx_toNat, by decide⟩

/-- Settles O30. -/
theorem rxPopOutcomes : Obligations.RxPopOutcomes := by
  intro s
  refine ⟨fun hempty => exec_of_held ((rxPopHeld_iff s).2 hempty), fun hfull => ?_⟩
  have hfree : rxPopHeld s = false := by simp [rxPopHeld, hfull]
  rw [exec, execRxPop, hfree]
  rfl

end Machine

end Sys2Proof

/-! SUPPORT. The lemmas behind the field reader statements: big-endian values, EXTRACT_INT's loop in closed form, and
EXTRACT_STR's clamped window. -/

namespace Sys2Proof

namespace Machine

open Sys2Proof.Safety

/-! ### Big-endian values -/

theorem bigEndian_concat (l : List Byte) (b : Byte) :
    bigEndian (l ++ [b]) = bigEndian l * 256 + b.toNat := by
  simp [bigEndian]

theorem bigEndian_take_succ {l : List Byte} {k : Nat} (hk : k < l.length) :
    bigEndian (l.take (k + 1)) = bigEndian (l.take k) * 256 + l[k].toNat := by
  rw [List.take_succ_eq_append_getElem hk, bigEndian_concat]

theorem bigEndian_take_lt {l : List Byte} {k : Nat} (hk : k ≤ l.length) :
    bigEndian (l.take k) < 256 ^ k := by
  induction k with
  | zero => exact Nat.one_pos
  | succ k ih =>
    have hbyte : l[k].toNat < 256 := l[k].isLt
    have hbefore := ih (Nat.le_of_succ_le hk)
    rw [bigEndian_take_succ hk, Nat.pow_succ]
    omega

theorem bigEndian_lt (l : List Byte) : bigEndian l < 256 ^ l.length := by
  have h := bigEndian_take_lt (Nat.le_refl l.length)
  rwa [List.take_length] at h

/-- A byte ORed below a value that was shifted left by 8 is added to it. -/
theorem mul_256_or_byte (v : Nat) (b : Byte) : v * 256 ||| b.toNat = v * 256 + b.toNat := by
  have h := Nat.shiftLeft_add_eq_or_of_lt (i := 8) b.isLt v
  rw [Nat.shiftLeft_eq] at h
  exact h.symm

/-! ### EXTRACT_INT -/

theorem extractLoop_append (f : RxFrame) (n start : Nat) (ks js : List Nat) (acc : Nat) :
    extractLoop f n start (ks ++ js) acc =
      extractLoop f n start js (extractLoop f n start ks acc) := by
  induction ks generalizing acc with
  | nil => rfl
  | cons k ks ih => exact ih _

theorem extractLoop_range_succ (f : RxFrame) (n start k acc : Nat) :
    extractLoop f n start (List.range (k + 1)) acc =
      extractStep f n start (extractLoop f n start (List.range k) acc) k := by
  rw [List.range_succ, extractLoop_append]
  rfl

/-- A position of the window past the payload leaves the accumulator alone (R78). -/
theorem extractStep_of_absent {f : RxFrame} {start k : Nat} (hk : f.dlen.toNat ≤ start + k)
    (n acc : Nat) : extractStep f n start acc k = acc :=
  if_neg (Nat.not_lt.2 hk)

/-- An available position of the window takes its byte in, and shifts unless it is the last (R78). -/
theorem extractStep_of_present {f : RxFrame} (hlen : f.data.length = f.dlen.toNat) {start k : Nat}
    (hk : k < (f.data.drop start).length) (n v : Nat) :
    extractStep f n start (v * 256) k =
      if k = n - 1 then v * 256 + (f.data.drop start)[k].toNat
      else (v * 256 + (f.data.drop start)[k].toNat) * 256 := by
  have hbyte : start + k < f.data.length := by
    rw [List.length_drop] at hk
    omega
  rw [List.getElem_drop, ← mul_256_or_byte, extractStep, if_pos (hlen ▸ hbyte)]
  simp [hbyte, Nat.shiftLeft_eq]

/-- Before the last position of the window the accumulator is the value of the bytes so far, already shifted once,
however many of them there are (R78). -/
theorem extractLoop_before_last {f : RxFrame} (hlen : f.data.length = f.dlen.toNat) (start : Nat)
    {n k : Nat} (hk : k < n) :
    extractLoop f n start (List.range k) 0 = bigEndian ((f.data.drop start).take k) * 256 := by
  induction k with
  | zero => simp [extractLoop, bigEndian]
  | succ k ih =>
    rw [extractLoop_range_succ, ih (by omega)]
    by_cases hbyte : k < (f.data.drop start).length
    · rw [extractStep_of_present hlen hbyte, if_neg (by omega), bigEndian_take_succ hbyte]
    · have habsent : f.dlen.toNat ≤ start + k := by
        rw [List.length_drop] at hbyte
        omega
      rw [extractStep_of_absent habsent, List.take_of_length_le (by omega),
        List.take_of_length_le (by omega)]

/-- EXTRACT_INT's loop is the value of the window, times 256 if the window is short (R78). -/
theorem extractLoop_range_self {f : RxFrame} (hlen : f.data.length = f.dlen.toNat) (start : Nat)
    {n : Nat} (hn : 1 ≤ n) :
    extractLoop f n start (List.range n) 0 =
      if n ≤ f.dlen.toNat - start then bigEndian ((f.data.drop start).take n)
      else bigEndian ((f.data.drop start).take n) * 256 := by
  obtain ⟨k, rfl⟩ := Nat.exists_eq_add_of_le' hn
  have hdrop : (f.data.drop start).length = f.dlen.toNat - start := by rw [List.length_drop, hlen]
  rw [extractLoop_range_succ, extractLoop_before_last hlen start k.lt_succ_self]
  split
  · next hfull =>
    have hbyte : k < (f.data.drop start).length := by omega
    rw [extractStep_of_present hlen hbyte, if_pos (by omega), bigEndian_take_succ hbyte]
  · next hshort =>
    rw [extractStep_of_absent (by omega), List.take_of_length_le (by omega),
      List.take_of_length_le (by omega)]

/-- A full window of `n` bytes needs `n` bytes, and a short one its own and the one of the shift (R78). -/
theorem extractValue_lt {f : RxFrame} (hlen : f.data.length = f.dlen.toNat) (start : Nat)
    {n : Nat} (hn : 1 ≤ n) : extractValue f n start < 256 ^ n := by
  have hwindow : ((f.data.drop start).take n).length = min n (f.dlen.toNat - start) := by
    rw [List.length_take, List.length_drop, hlen]
  have hv := bigEndian_lt ((f.data.drop start).take n)
  rw [extractValue, extractLoop_range_self hlen start hn]
  split
  · exact Nat.pow_pos (by decide)
  · split
    · next hfull => rwa [hwindow, Nat.min_eq_left hfull] at hv
    · next hshort =>
      calc bigEndian ((f.data.drop start).take n) * 256
          < 256 ^ ((f.data.drop start).take n).length * 256 := by omega
        _ = 256 ^ (((f.data.drop start).take n).length + 1) := (Nat.pow_succ ..).symm
        _ ≤ 256 ^ n := Nat.pow_le_pow_right (by decide) (by omega)

/-- Inside its domain EXTRACT_INT answers the integer it composes, and writes nothing else (R78). -/
theorem exec_extractInt_of_legal {f : RxFrame} (hlen : f.data.length = f.dlen.toNat)
    {nbytes : BitVec 4} (hlo : 1 ≤ nbytes.toNat) (hhi : nbytes.toNat ≤ 8) (start : BitVec 16)
    (s : State) :
    exec (.extractInt f nbytes start) s =
      .next (s.addResponse
        (.ok (.int (BitVec.ofNat 64 (extractValue f nbytes.toNat start.toNat))))) := by
  rw [exec, execExtractInt, if_pos ((nbytesLegal_iff nbytes).2 ⟨hlo, hhi⟩), if_pos (f.wf_iff.2 hlen),
    respond]

/-! ### EXTRACT_STR -/

/-- Clamping the window to the payload is what `take` and `drop` do by themselves (R79). -/
theorem extractBytes_eq_take_drop {f : RxFrame} (hlen : f.data.length = f.dlen.toNat) (start count : Nat) :
    extractBytes f start count = (f.data.drop start).take count := by
  rw [extractBytes, ← hlen]
  split
  · next hpast => rw [List.drop_of_length_le (Nat.le_of_lt hpast), List.take_nil]
  · rw [← List.length_drop, ← List.take_eq_take_min]

/-- Inside its domain EXTRACT_STR answers the bytes of its window, and writes nothing else (R79). -/
theorem exec_extractStr_of_wf {f : RxFrame} (hlen : f.data.length = f.dlen.toNat)
    (start count : BitVec 16) (s : State) :
    exec (.extractStr f start count) s =
      .next (s.addResponse (.ok (.bytes ((f.data.drop start.toNat).take count.toNat)))) := by
  rw [exec, execExtractStr, if_pos (f.wf_iff.2 hlen), respond, extractBytes_eq_take_drop hlen]

/-! ### The statements -/

/-- Settles O34: the value of the loop is the closed form. -/
theorem extractIntClosedForm : Obligations.ExtractIntClosedForm := by
  intro f nbytes start s hlen hlo hhi a v result
  have hv : v = bigEndian ((f.data.drop start.toNat).take nbytes.toNat) := by
    rw [List.take_eq_take_min, List.length_drop, hlen]
  have hfull : a = nbytes.toNat ↔ nbytes.toNat ≤ f.dlen.toNat - start.toNat := by
    simp only [a]
    omega
  have hresult : extractValue f nbytes.toNat start.toNat = result := by
    rw [extractValue, extractLoop_range_self hlen start.toNat hlo, ← hv]
    simp only [result, hfull]
  rw [exec_extractInt_of_legal hlen hlo hhi, hresult, State.addResponse]

/-- Settles O35: `256 ^ nbytes` is `2 ^ (8 * nbytes)`, at most `2 ^ 64`. -/
theorem extractIntFitsItsWindow : Obligations.ExtractIntFitsItsWindow := by
  intro f nbytes start s hlen hlo hhi
  have hfits : extractValue f nbytes.toNat start.toNat < 2 ^ (8 * nbytes.toNat) := by
    rw [Nat.pow_mul]
    exact extractValue_lt hlen start.toNat hlo
  have h64 : 2 ^ (8 * nbytes.toNat) ≤ 2 ^ 64 := Nat.pow_le_pow_right (by decide) (by omega)
  refine ⟨hfits, _, ?_, exec_extractInt_of_legal hlen hlo hhi start s⟩
  rw [BitVec.toNat_ofNat, Nat.mod_eq_of_lt (Nat.lt_of_lt_of_le hfits h64)]

/-- Settles O37: the answer is a `take` of a `drop` of the payload. -/
theorem extractStrCopiesTheClampedWindow : Obligations.ExtractStrCopiesTheClampedWindow := by
  intro f start count s hlen
  refine ⟨_, exec_extractStr_of_wf hlen start count s, fun hpast => ?_, ?_, fun k hk => ?_⟩
  · rw [List.drop_of_length_le (hlen ▸ Nat.le_of_lt hpast), List.take_nil]
  · rw [List.length_take, List.length_drop, hlen]
  · have hcount : k < count.toNat := Nat.lt_of_lt_of_le hk (List.length_take_le ..)
    rw [List.getElem?_take_of_lt hcount, List.getElem?_drop]

/-- Settles O36: `nbytes` is checked before the frame (log 9). -/
theorem extractIntFaultsOutsideItsRange : Obligations.ExtractIntFaultsOutsideItsRange := by
  intro f nbytes start s hrange
  have hillegal : nbytesLegal nbytes = false := by
    rw [← Bool.not_eq_true, nbytesLegal_iff]
    omega
  exact execExtractInt_of_not_legal hillegal f start s

end Machine

end Sys2Proof

/-! SUPPORT. The lemmas behind the control unit statements: CTRL and STATUS bit by bit, the index map of CSR_RD and
CSR_WR, and both words after RESET. -/

namespace Sys2Proof

namespace Machine

open Sys2Proof.Safety

/-! ### CTRL and STATUS, bit by bit -/

@[simp] theorem fieldBit_false (k : Nat) : fieldBit k false = 0#32 := rfl

theorem getLsbD_fieldBit {k : Nat} (hk : k < 32) (b : Bool) (j : Nat) :
    (fieldBit k b).getLsbD j = (b && decide (j = k)) := by
  cases b with
  | false => exact BitVec.getLsbD_zero
  | true =>
    have hbit : (BitVec.twoPow 32 k).getLsbD j = (decide (k < 32) && decide (k = j)) :=
      BitVec.getLsbD_twoPow k j
    exact hbit.trans (by simp [hk, eq_comm])

/-- CTRL has CHK_EN in bit 0 and no other field (R15). -/
theorem getLsbD_ctrlWord (s : State) (j : Nat) :
    (ctrlWord s).getLsbD j = (s.chkEn && decide (j = 0)) :=
  getLsbD_fieldBit (by decide) s.chkEn j

/-- The five fields of STATUS lie in bits 0 to 4, one each (R16). -/
theorem getLsbD_statusWord (s : State) (j : Nat) :
    (statusWord s).getLsbD j =
      (s.outValid && decide (j = 0) || s.txBusy && decide (j = 1) || rxInFrame s && decide (j = 2) ||
        s.rxBadchk && decide (j = 3) || s.txToobig && decide (j = 4)) := by
  simp (disch := decide) only [statusWord, BitVec.getLsbD_or, getLsbD_fieldBit]

/-- Bits 31:5 of STATUS are reserved and read 0 (R16). -/
theorem getLsbD_statusWord_reserved (s : State) {j : Nat} (hj : 5 ≤ j) :
    (statusWord s).getLsbD j = false := by
  have hne {n : Nat} (hn : n < 5) : j ≠ n := by omega
  simp [getLsbD_statusWord, hne]

theorem rxInFrame_iff (s : State) : rxInFrame s = true ↔ s.rxSt ≠ .hunt := by
  simp [rxInFrame]

/-! ### The index map -/

/-- An unmapped index reads 0 (R80). -/
theorem readCsr_of_unmapped {idx : BitVec 8} (hidx : 4 ≤ idx.toNat) (s : State) :
    readCsr idx s = 0#32 := by
  unfold readCsr
  split
  case h_5 => rfl
  all_goals omega

/-- A write to a counter or to an unmapped index is ignored (R81). -/
theorem writeCsr_of_ignored {idx : BitVec 8} (hidx : 2 ≤ idx.toNat) (val : Word32) (s : State) :
    writeCsr idx val s = s := by
  rcases writeCsr_cases idx val s with ⟨rfl, _⟩ | ⟨rfl, _⟩ | ⟨_, e⟩
  · exact absurd hidx (by decide)
  · exact absurd hidx (by decide)
  · exact e

theorem w1c_eq_ite (w sticky : Bool) : w1c w sticky = if w = true then false else sticky := by
  cases w <;> simp [w1c]

/-! ### After RESET -/

theorem ctrlWord_clearState (s : State) : ctrlWord (clearState s) = 0#32 := by
  rw [ctrlWord, clearState_chkEn, fieldBit_false]

theorem statusWord_clearState (s : State) : statusWord (clearState s) = 0#32 := by
  simp [statusWord, rxInFrame]

/-! ### The statements -/

/-- Settles O39: the value read is `readCsr`, whose two packed words are known bit by bit. -/
theorem csrReadValues : Obligations.CsrReadValues := by
  intro idx s
  refine ⟨readCsr idx s, execCsrRd_eq idx s, ?ctrl, ?status, ?drops, ?noise,
    fun hidx => readCsr_of_unmapped hidx s⟩
  case ctrl =>
    rintro rfl
    refine ⟨?_, fun k hk => ?_⟩
    · exact (getLsbD_ctrlWord s 0).trans (Bool.and_true _)
    · have hk0 : k ≠ 0 := by omega
      exact (getLsbD_ctrlWord s k).trans (by simp [hk0])
  case status =>
    rintro rfl
    have hread : readCsr 0x01#8 s = statusWord s := rfl
    rw [hread, ← rxInFrame_iff, ← Bool.eq_iff_iff]
    exact ⟨(getLsbD_statusWord s 0).trans (by simp), (getLsbD_statusWord s 1).trans (by simp),
      (getLsbD_statusWord s 2).trans (by simp), (getLsbD_statusWord s 3).trans (by simp),
      (getLsbD_statusWord s 4).trans (by simp), fun _ hk => getLsbD_statusWord_reserved s hk⟩
  case drops =>
    rintro rfl
    rfl
  case noise =>
    rintro rfl
    rfl

/-- Settles O40: CTRL and STATUS are written as `writeCsr` says, every other index ignores the write. -/
theorem csrWriteEffects : Obligations.CsrWriteEffects := by
  intro idx val s
  refine ⟨?ctrl, ?status, fun hidx => ?ignored⟩
  case ctrl =>
    rintro rfl
    rfl
  case status =>
    rintro rfl
    rw [← w1c_eq_ite, ← w1c_eq_ite]
    rfl
  case ignored =>
    rw [exec, execCsrWr_eq, writeCsr_of_ignored hidx, State.addResponse]

/-- Settles O41: the state RESET answers is `clearState` with one response more, in which the framer is idle, the
deframer hunts and no frame waits. -/
theorem resetRestoresTheResetColumn : Obligations.ResetRestoresTheResetColumn := by
  intro s
  have hsubmit (r : TxRequest) :
      held (.txSubmit r) ((clearState s).addResponse (.ok .none)) = false := Bool.and_false _
  exact ⟨rfl, _, execReset_eq s, rfl, rfl, rfl, rfl, rfl, rfl, rfl, rfl, rfl, rfl, rfl,
    ctrlWord_clearState s, statusWord_clearState s,
    exec_of_held ((txEmitHeld_iff _).2 rfl), exec_of_held ((rxPopHeld_iff _).2 rfl),
    hsubmit, fun _ => rfl, rfl, rfl, rfl⟩

end Machine

end Sys2Proof

/-! SUPPORT. The lemmas behind the exception statements: which operation gives which failing response or fault, what the
two port steps read, and a write of STATUS before the event that sets a sticky bit. -/

namespace Sys2Proof

namespace Machine

open Sys2Proof.Safety

/-! ### Who raises an error -/

/-- The response that was added is the last one. -/
theorem addResponse_eq_last {s t u : State} {e r : Response} (hu : t = u.addResponse r)
    (hsame : u.responses = s.responses) (he : t.responses = s.responses ++ [e]) : e = r := by
  simpa [hu, hsame, eq_comm] using he

/-- A response to HOST is a success, or TX_SUBMIT's refusal of an oversized payload, or DECODE's of an incomplete buffer;
with an error comes all that its operation wrote (R83, R66, R76). -/
theorem exec_response_cases {i : Instr} {s t : State} {e : Response} (h : exec i s = .next t)
    (he : t.responses = s.responses ++ [e]) :
    (∃ v, e = .ok v) ∨
    (∃ r, i = .txSubmit r ∧ 255 < r.data.length ∧ e = .payloadTooLarge r.data.length ∧
      t = ({ s with txToobig := true } : State).addResponse e) ∨
    (∃ buf, i = .decode buf ∧ parseFrame buf = none ∧ e = .malformedFrame buf.length ∧
      t = s.addResponse e) := by
  have hchanged : t.responses ≠ s.responses := by simp [he]
  rcases exec_cases h with ⟨r, rfl, hsubmit⟩ | ⟨rfl, _⟩ | ⟨b, rfl, _⟩ | ⟨rfl, hpop⟩ |
    ⟨buf, r, rfl, ht, hr⟩ | ⟨_, v, ht⟩ | ⟨x, v, rfl, ht⟩ | ⟨rfl, ht⟩
  · rcases hsubmit with ⟨hsize, ht⟩ | ⟨_, _, ht⟩ | ⟨_, _, ht⟩
    · obtain rfl := addResponse_eq_last ht rfl he
      exact .inr (.inl ⟨r, rfl, hsize, rfl, ht⟩)
    · exact absurd (congrArg State.responses ht) hchanged
    · exact .inl ⟨_, addResponse_eq_last ht rfl he⟩
  · exact absurd ((exec_responses h).resolve_left nofun).2 hchanged
  · exact absurd ((exec_responses h).resolve_left nofun).2 hchanged
  · rcases hpop with ⟨_, ht⟩ | ⟨_, ht⟩
    · exact absurd (congrArg State.responses ht) hchanged
    · exact .inl ⟨_, addResponse_eq_last ht rfl he⟩
  · obtain rfl := addResponse_eq_last ht rfl he
    rcases hr with ⟨rfl, hnone⟩ | ⟨f, rfl, _⟩
    · exact .inr (.inr ⟨buf, rfl, hnone, rfl, ht⟩)
    · exact .inl ⟨_, rfl⟩
  · exact .inl ⟨_, addResponse_eq_last ht rfl he⟩
  · exact .inl ⟨_, addResponse_eq_last ht (writeCsr_responses x v s) he⟩
  · exact .inl ⟨_, addResponse_eq_last ht rfl he⟩

/-- Only TX_SUBMIT of an oversized payload raises PAYLOAD_TOO_LARGE, and it writes TX_TOOBIG alone (R66, R83). -/
theorem exec_of_payloadTooLarge {i : Instr} {s t : State} {n : Nat} (h : exec i s = .next t)
    (he : t.responses = s.responses ++ [.payloadTooLarge n]) :
    ∃ r, i = .txSubmit r ∧ n = r.data.length ∧ 255 < n ∧
      t = ({ s with txToobig := true } : State).addResponse (.payloadTooLarge n) := by
  rcases exec_response_cases h he with ⟨_, e⟩ | ⟨r, rfl, hsize, e, ht⟩ | ⟨_, _, _, e, _⟩
  · cases e
  · cases e
    exact ⟨r, rfl, rfl, hsize, ht⟩
  · cases e

/-- Only DECODE of an incomplete buffer raises MALFORMED_FRAME, and it writes nothing (R76, R83). -/
theorem exec_of_malformedFrame {i : Instr} {s t : State} {n : Nat} (h : exec i s = .next t)
    (he : t.responses = s.responses ++ [.malformedFrame n]) :
    ∃ buf, i = .decode buf ∧ n = buf.length ∧ parseFrame buf = none ∧
      t = s.addResponse (.malformedFrame n) := by
  rcases exec_response_cases h he with ⟨_, e⟩ | ⟨_, _, _, e, _⟩ | ⟨buf, rfl, hnone, e, ht⟩
  · cases e
  · cases e
  · cases e
    exact ⟨buf, rfl, rfl, hnone, ht⟩

/-- DECODE finds no frame only in a buffer shorter than the header, or than header and payload (R76). -/
theorem length_lt_of_parseFrame_eq_none {buf : List Byte} (h : parseFrame buf = none) :
    buf.length < 5 ∨ ∃ d : Byte, buf[4]? = some d ∧ buf.length < 5 + d.toNat := by
  match buf with
  | [] | [_] | [_, _] | [_, _, _] | [_, _, _, _] => exact .inl (by simp)
  | _ :: _ :: _ :: _ :: d :: rest =>
    refine .inr ⟨d, rfl, ?_⟩
    rw [parseFrame] at h
    split at h
    · next hshort => simpa [Nat.add_comm 5] using hshort
    · simp only at h
      split at h <;> cases h

/-! ### Who faults -/

/-- Only the field reader, on operands outside their domains, and TX_EMIT past the end of `tx_buf` fault
(R78, R84; log 9, log 11). -/
theorem exec_fault_cases {i : Instr} {s : State} {r : Fault} (h : exec i s = .fault r) :
    (∃ f n start, i = .extractInt f n start ∧ nbytesLegal n = false ∧ r = .illegalOp (.nbytes n)) ∨
    (∃ f, ((∃ n start, i = .extractInt f n start) ∨ ∃ start count, i = .extractStr f start count) ∧
      f.wf = false ∧ r = .operandOutsideDomain) ∨
    (i = .txEmit ∧ r = .txBufOutOfRange) := by
  cases i with
  | txSubmit r =>
    rw [exec, execTxSubmit] at h
    split at h
    · cases h
    · split at h <;> cases h
  | txEmit =>
    rw [exec, execTxEmit] at h
    split at h
    · cases h
    · split at h <;> cases h
      exact .inr (.inr ⟨rfl, rfl⟩)
  | rxByte b =>
    rw [exec, execRxByte] at h
    split at h <;> cases h
  | rxPop =>
    rw [exec, execRxPop] at h
    split at h <;> cases h
  | decode buf =>
    rw [exec, execDecode] at h
    split at h <;> cases h
  | extractInt f n start =>
    cases hn : nbytesLegal n with
    | false =>
      rw [exec, execExtractInt_of_not_legal hn] at h
      cases h
      exact .inl ⟨f, n, start, rfl, hn, rfl⟩
    | true =>
      cases hf : f.wf with
      | false =>
        rw [exec, execExtractInt_of_not_wf hn hf] at h
        cases h
        exact .inr (.inl ⟨f, .inl ⟨n, start, rfl⟩, hf, rfl⟩)
      | true =>
        rw [exec, execExtractInt, if_pos hn, if_pos hf] at h
        cases h
  | extractStr f start count =>
    cases hf : f.wf with
    | false =>
      rw [exec, execExtractStr_of_not_wf hf] at h
      cases h
      exact .inr (.inl ⟨f, .inr ⟨start, count, rfl⟩, hf, rfl⟩)
    | true =>
      rw [exec, execExtractStr, if_pos hf] at h
      cases h
  | csrRd | csrWr | reset => cases h

/-- A step faults on the transaction it picked: its opcode is reserved, or the operation it decodes to faults (R84). -/
theorem step_fault_cases {s : State} {r : Fault} (h : step s = .fault r) :
    ∃ u left, pick s [] s.pending = some (u, left) ∧
      ((∃ op, decodeOp u = .error (.reservedOpcode op) ∧ r = .illegalOp (.opcode op)) ∨
        ∃ i, decodeOp u = .ok i ∧ exec i (s.setPending left) = .fault r) := by
  rcases step_cases s with ⟨_, e⟩ | ⟨u, left, i, hp, hd, e⟩ | ⟨u, left, op, hp, hd, e⟩ |
    ⟨_, _, _, _, _, e⟩
  · rw [e] at h
    cases h
  · exact ⟨u, left, hp, .inr ⟨i, hd, e.symm.trans h⟩⟩
  · rw [e] at h
    cases h
    exact ⟨u, left, hp, .inl ⟨op, hd, rfl⟩⟩
  · rw [e] at h
    cases h

/-! ### What the port steps read -/

theorem advanceTx_sameTx {s t : State} (h : SameTx s t) : SameTx (advanceTx s) (advanceTx t) := by
  obtain ⟨hbusy, hbuf, hidx⟩ := h
  by_cases hlast : s.txIdx.toNat + 1 = s.txBuf.length
  · simp [advanceTx, SameTx, hbuf, hidx, hlast]
  · simp [advanceTx, SameTx, hbusy, hbuf, hidx, hlast]

theorem emit_advanceTx_txOut (b : Byte) (s : State) :
    ((advanceTx s).emit b).txOut = s.txOut ++ [b] := by
  obtain ⟨_, _, _, hsent, _⟩ := advanceTx_frame s
  exact congrArg (· ++ [b]) hsent

/-- What TX_EMIT sends and leaves in the TX framer depends on the TX framer alone (R67, R94). -/
theorem execTxEmit_sameTx {s s' t t' : State} (htx : SameTx s s') (h : execTxEmit s = .next t)
    (h' : execTxEmit s' = .next t') :
    SameTx t t' ∧ ∃ sent, t.txOut = s.txOut ++ sent ∧ t'.txOut = s'.txOut ++ sent := by
  have ⟨hbusyEq, hbuf, hidx⟩ := htx
  rcases execTxEmit_cases h with ⟨hidle, rfl⟩ | ⟨hbusy, b, hb, rfl⟩
  · have hheld : held .txEmit s' = true := (txEmitHeld_iff s').2 (hbusyEq.trans hidle)
    cases (exec_of_held hheld).symm.trans h'
    exact ⟨htx, [], by simp⟩
  · have hb' : s'.txBuf[s'.txIdx.toNat]? = some b := by rw [hbuf, hidx, hb]
    cases (execTxEmit_of_busy (hbusyEq.trans hbusy) hb').symm.trans h'
    exact ⟨advanceTx_sameTx htx, [b], emit_advanceTx_txOut b s, emit_advanceTx_txOut b s'⟩

/-- The CHK byte empties the payload and has the deframer hunt again, delivered or dropped (R71, R73). -/
theorem acceptChk_rxRegisters (b : Byte) (s : State) :
    (acceptChk b s).rxSt = .hunt ∧ (acceptChk b s).rxPay = [] ∧
      (acceptChk b s).rxSop2 = s.rxSop2 ∧ (acceptChk b s).rxMrsp = s.rxMrsp ∧
      (acceptChk b s).rxSeq = s.rxSeq ∧ (acceptChk b s).rxDlen = s.rxDlen ∧
      (acceptChk b s).rxSum = s.rxSum := by
  rcases acceptChk_cases b s with ⟨_, e⟩ | ⟨_, _, e⟩ <;> simp [e]

/-- The deframer's next registers depend on its registers and the byte alone (R70, R94). -/
theorem acceptByte_sameRx {s t : State} (b : Byte) (h : SameRx s t) :
    SameRx (acceptByte b s) (acceptByte b t) := by
  obtain ⟨hst, hsop2, hmrsp, hseq, hdlen, hpay, hsum⟩ := h
  rw [acceptByte, acceptByte, hst]
  cases hs : s.rxSt with
  | hunt =>
    by_cases hb : b = Config.sop1 <;>
      simp [acceptHunt, hb, SameRx, hst, hsop2, hmrsp, hseq, hdlen, hpay, hsum]
  | sop2 => simp [acceptSop2, SameRx, hmrsp, hseq, hdlen, hpay, hsum]
  | mrsp => simp [acceptMrsp, SameRx, hsop2, hseq, hdlen, hpay]
  | seq => simp [acceptSeq, SameRx, hsop2, hmrsp, hdlen, hpay, hsum]
  | dlen => simp [acceptDlen, SameRx, hsop2, hmrsp, hseq, hsum]
  | data => simp [acceptData, SameRx, hst, hsop2, hmrsp, hseq, hdlen, hpay, hsum]
  | chk => simp [SameRx, acceptChk_rxRegisters, hsop2, hmrsp, hseq, hdlen, hsum]

/-- What is delivered depends on the RX side and CHK_EN alone (R71, R94). -/
theorem acceptByte_sameOut {s t : State} (b : Byte) (hrx : SameRx s t) (hout : SameOut s t)
    (hen : t.chkEn = s.chkEn) : SameOut (acceptByte b s) (acceptByte b t) := by
  obtain ⟨hst, hsop2, hmrsp, hseq, hdlen, hpay, hsum⟩ := hrx
  obtain ⟨hvalid, hframe⟩ := hout
  by_cases hs : s.rxSt = .chk
  · have hcompleted : completedFrame b t = completedFrame b s := by
      simp only [completedFrame, chkMatches, hsop2, hmrsp, hseq, hdlen, hpay, hsum]
    simp only [acceptByte, hst, hs, SameOut, acceptChk_outValid, acceptChk_outFrame, hcompleted,
      hsum, hen, hvalid, hframe, and_self]
  · obtain ⟨⟨hvalid_s, hframe_s⟩, _⟩ := acceptByte_beforeChk b s hs
    obtain ⟨⟨hvalid_t, hframe_t⟩, _⟩ := acceptByte_beforeChk b t (hst ▸ hs)
    simp only [SameOut, hvalid_s, hframe_s, hvalid_t, hframe_t, hvalid, hframe, and_self]

/-- In two states that share what RX_BYTE reads, it is held in both or accepted in both (R72, R94). -/
theorem exec_rxByte_alike {b : Byte} {s s' t t' : State} (hst : s'.rxSt = s.rxSt)
    (hvalid : s'.outValid = s.outValid) (h : exec (.rxByte b) s = .next t)
    (h' : exec (.rxByte b) s' = .next t') :
    (t = s ∧ t' = s') ∨ (t = acceptByte b s ∧ t' = acceptByte b s') := by
  rcases exec_rxByte_cases h with ⟨hchk, hfull, e⟩ | ⟨hfree, e⟩
  · have hheld : held (.rxByte b) s' = true :=
      (rxByteHeld_iff s').2 ⟨hst.trans hchk, hvalid.trans hfull⟩
    cases (exec_of_held hheld).symm.trans h'
    exact .inl ⟨e, rfl⟩
  · rw [← hst, ← hvalid] at hfree
    cases (exec_rxByte_of_free hfree b).symm.trans h'
    exact .inr ⟨e, rfl⟩

/-! ### A write of STATUS before the event that sets a sticky bit -/

theorem runEnabled_csrWr_cons (idx : BitVec 8) (val : Word32) (is : List Instr) (s : State) :
    runEnabled (.csrWr idx val :: is) s =
      runEnabled is ((writeCsr idx val s).addResponse (.ok .none)) :=
  runEnabled_cons_of_next (i := .csrWr idx val) rfl (execCsrWr_eq idx val s) is

/-- A mismatched CHK byte sets RX_BADCHK (R71). -/
theorem runEnabled_mismatchedChk {b : Byte} {s : State} (hs : s.rxSt = .chk)
    (hempty : s.outValid = false) (hb : b ≠ ~~~ s.rxSum) :
    ∃ t, runEnabled [.rxByte b] s = some t ∧ t.rxBadchk = true := by
  have hfree : ¬ (s.rxSt = .chk ∧ s.outValid = true) := by simp [hempty]
  have hfree' : held (.rxByte b) s = false := (rxByteHeld_eq_false s).2 hfree
  exact ⟨_, runEnabled_cons_of_next hfree' (exec_rxByte_of_free hfree b) [],
    by simp [acceptByte_rxBadchk, hs, hb]⟩

/-- An oversized TX_SUBMIT sets TX_TOOBIG (R66). -/
theorem runEnabled_oversized {r : TxRequest} (hsize : 255 < r.data.length) (s : State) :
    ∃ t, runEnabled [.txSubmit r] s = some t ∧ t.txToobig = true := by
  have hfree : held (.txSubmit r) s = false := by
    simp [held, txSubmitHeld, (tooLarge_iff r).2 hsize]
  exact ⟨_, runEnabled_cons_of_next hfree (execTxSubmit_of_oversized hsize s) [], rfl⟩

/-! ### The statements -/

/-- Settles O49: one lemma for each error says who raises it. -/
theorem errorsAndTheirCauses : Obligations.ErrorsAndTheirCauses := by
  refine ⟨fun _ _ => ⟨rfl, rfl, rfl⟩, fun _ => rfl, rfl, fun i s t n h he => ?_,
    fun i s t n h he => ?_, fun i s info h => ?_⟩
  · obtain ⟨r, hi, hn, hsize, ht⟩ := exec_of_payloadTooLarge h he
    exact ⟨r, hi, hn, hsize, ht ▸ rfl⟩
  · obtain ⟨buf, hi, hn, hnone, _⟩ := exec_of_malformedFrame h he
    exact ⟨buf, hi, hn, hn ▸ length_lt_of_parseFrame_eq_none hnone⟩
  · rcases exec_fault_cases h with ⟨f, n, start, hi, hn, e⟩ | ⟨_, _, _, e⟩ | ⟨_, e⟩
    · cases e
      rw [← Bool.not_eq_true, nbytesLegal_iff] at hn
      exact ⟨f, n, start, hi, rfl, by omega⟩
    · cases e
    · cases e

/-- Settles O50: an error comes with all that its operation wrote, and a fault is that of the transaction picked. -/
theorem errorsArePrecise : Obligations.ErrorsArePrecise := by
  refine ⟨fun i s t n h => ⟨fun he => ?_, fun he => ?_⟩, fun s r h => ?_⟩
  · obtain ⟨_, _, _, _, rfl⟩ := exec_of_payloadTooLarge h he
    rfl
  · obtain ⟨_, _, _, _, rfl⟩ := exec_of_malformedFrame h he
    rfl
  · obtain ⟨u, left, hp, hcause⟩ := step_fault_cases h
    obtain ⟨before, later, hpending, rfl⟩ := pick_mem hp
    rw [afterFault_of_pick r hp]
    refine ⟨by simp [SameFrm, SameTx, SameRx, SameOut, SameCsr], rfl, before, u, later, hpending, hp,
      rfl, ?_⟩
    rcases hcause with ⟨op, hd, rfl⟩ | ⟨i, hd, hexec⟩
    · obtain ⟨rfl, _⟩ := decodeOp_reservedOpcode hd
      exact .inl ⟨u.opcode, rfl, hd, rfl, rfl⟩
    · rcases exec_fault_cases hexec with ⟨f, n, start, rfl, hn, rfl⟩ | ⟨f, hi, hf, rfl⟩ | ⟨rfl, rfl⟩
      · exact .inr (.inl ⟨f, n, start, rfl, hd, hn, rfl⟩)
      · refine .inr (.inr (.inl ⟨f, ?_, rfl, hf, rfl⟩))
        rcases hi with ⟨n, start, rfl⟩ | ⟨start, count, rfl⟩
        · exact .inl ⟨n, start, hd⟩
        · exact .inr ⟨start, count, hd⟩
      · exact .inr (.inr (.inr ⟨rfl, hd, List.append_nil _⟩))

/-- Settles O53: the frame of each port step, then both steps in two states that share what is read. -/
theorem portStepsStayOnTheirSide : Obligations.PortStepsStayOnTheirSide := by
  refine ⟨fun s t h => ?_, fun b s t h => ?_, fun s s' t t' htx h h' => ?_,
    fun b s s' t t' hrx hout hen h h' => ?_⟩
  · rcases execTxEmit_cases h with ⟨_, rfl⟩ | ⟨_, b, _, rfl⟩
    · simp [SameRx, SameOut, SameCsr]
    · obtain ⟨hrx, hout, hcsr, _, hresponses, _⟩ := advanceTx_frame s
      exact ⟨hrx, hout, hcsr, hresponses⟩
  · rcases exec_rxByte_cases h with ⟨_, _, rfl⟩ | ⟨_, rfl⟩
    · simp [SameTx]
    · obtain ⟨htx, hsent, hen, hbig, hresponses, _⟩ := acceptByte_frame b s
      exact ⟨htx, hsent, hen, hbig, hresponses⟩
  · exact execTxEmit_sameTx htx h h'
  · have ⟨hst, _, _, _, _, _, hsum⟩ := hrx
    have ⟨hvalid, _⟩ := hout
    rcases exec_rxByte_alike hst hvalid h h' with ⟨rfl, rfl⟩ | ⟨rfl, rfl⟩
    · exact ⟨hrx, hout, id, id, id⟩
    · refine ⟨acceptByte_sameRx b hrx, acceptByte_sameOut b hrx hout hen, fun hnoise => ?_,
        fun hdrop => ?_, fun hbad => ?_⟩
      · rw [acceptByte_rxNoiseCnt, acceptByte_rxNoiseCnt, hst, hnoise]
      · rw [acceptByte_rxDropCnt, acceptByte_rxDropCnt, hst, hen, hsum, hdrop]
      · simp only [acceptByte_rxBadchk, hst, hsum, hbad]

/-- Settles O45: the event sets the bit whatever the write left in it. -/
theorem clearThenSetLeavesTheBitSet : Obligations.ClearThenSetLeavesTheBitSet := by
  refine ⟨fun val b s hs hempty hb => ?_, fun val r s hsize => ?_⟩
  · obtain ⟨_, ⟨hst, _, _, _, _, _, hsum⟩, ⟨hvalid, _⟩, _⟩ := writeCsr_frame 0x01#8 val s
    rw [runEnabled_csrWr_cons]
    exact runEnabled_mismatchedChk (hst.trans hs) (hvalid.trans hempty) (hsum.symm ▸ hb)
  · rw [runEnabled_csrWr_cons]
    exact runEnabled_oversized hsize _

end Machine

end Sys2Proof

/-! SUPPORT. The lemmas behind the statements of RESET and of the hazards: the state RESET answers, bytes that stay sent,
and the CTRL write in the middle of a frame. -/

namespace Sys2Proof

namespace Machine

open Sys2Proof.Safety

/-! ### After RESET, and along the run that follows -/

/-- The state RESET answers has the TX framer idle, the deframer hunting, no frame waiting, and both counters 0; what has
been sent stays sent (R82; log 5). -/
theorem exec_reset_idle {s t : State} (h : exec .reset s = .next t) :
    TxInv t ∧ toSend t = [] ∧ waitingFrame t = [] ∧ t.txOut = s.txOut ∧
      t.rxDropCnt = 0#32 ∧ t.rxNoiseCnt = 0#32 := by
  obtain rfl := exec_reset_eq h
  exact ⟨(framerInv_of_idle rfl rfl).1, toSend_of_idle rfl, waitingFrame_of_empty rfl, rfl, rfl, rfl⟩

/-- No operation takes back a byte that has been sent (R33; log 5). -/
theorem exec_txOut_prefix {i : Instr} {s t : State} (h : exec i s = .next t) : s.txOut <+: t.txOut := by
  by_cases hreset : i = .reset
  · subst hreset
    obtain ⟨_, _, _, hout, _⟩ := exec_reset_idle h
    exact hout ▸ List.prefix_rfl
  by_cases hemit : i = .txEmit
  · subst hemit
    rcases execTxEmit_cases h with ⟨_, rfl⟩ | ⟨_, b, _, rfl⟩
    · exact List.prefix_rfl
    · obtain ⟨_, _, _, hout, _⟩ := advanceTx_frame s
      exact ⟨[b], by rw [State.emit_txOut, hout]⟩
  · obtain ⟨_, _, _, _, _, _, _, _, _, hout, _⟩ :=
      elementsAreWrittenOnlyByTheirOperations i s t h hreset
    have hsame : t.txOut = s.txOut := Decidable.byContradiction fun hne => hemit (hout hne)
    exact hsame ▸ List.prefix_rfl

theorem runEnabled_txOut_prefix {is : List Instr} {s t : State} (h : runEnabled is s = some t) :
    s.txOut <+: t.txOut := by
  induction is generalizing s with
  | nil =>
    cases h
    exact List.prefix_rfl
  | cons i is ih =>
    obtain ⟨_, u, hu, hrest⟩ := runEnabled_cons_eq_some h
    exact (exec_txOut_prefix hu).trans (ih hrest)

/-! ### The CTRL write and the frame in progress -/

/-- The state a write of `val` to CTRL leaves (R81). -/
def ctrlWritten (val : Word32) (s : State) : State :=
  (writeCsr 0x00#8 val s).addResponse (.ok .none)

theorem runEnabled_ctrlWrite_cons (val : Word32) (is : List Instr) (s : State) :
    runEnabled (.csrWr 0x00#8 val :: is) s = runEnabled is (ctrlWritten val s) :=
  runEnabled_csrWr_cons 0x00#8 val is s

theorem ctrlWritten_chkEn (val : Word32) (s : State) :
    (ctrlWritten val s).chkEn = val.getLsbD 0 := rfl

/-- Only a write of CTRL and RESET change CHK_EN (R15, R81). -/
theorem exec_chkEn {i : Instr} {s t : State} (h : exec i s = .next t) (hreset : i ≠ .reset)
    (hctrl : ∀ v, i ≠ .csrWr 0x00#8 v) : t.chkEn = s.chkEn := by
  by_cases hwrite : ∃ idx val, i = .csrWr idx val
  · obtain ⟨idx, val, rfl⟩ := hwrite
    cases (execCsrWr_eq idx val s).symm.trans h
    rcases writeCsr_cases idx val s with ⟨rfl, _⟩ | ⟨_, e⟩ | ⟨_, e⟩
    · exact absurd rfl (hctrl val)
    · rw [e, State.addResponse_chkEn]
    · rw [e, State.addResponse_chkEn]
  · obtain ⟨hen, _⟩ := elementsAreWrittenOnlyByTheirOperations i s t h hreset
    exact Decidable.byContradiction fun hne => hwrite (hen hne)

theorem runEnabled_chkEn {is : List Instr} {s t : State}
    (hcalm : ∀ i ∈ is, i ≠ .reset ∧ ∀ v, i ≠ .csrWr 0x00#8 v) (h : runEnabled is s = some t) :
    t.chkEn = s.chkEn := by
  induction is generalizing s with
  | nil =>
    cases h
    rfl
  | cons i is ih =>
    obtain ⟨⟨hreset, hctrl⟩, hrest⟩ := List.forall_mem_cons.1 hcalm
    obtain ⟨_, u, hu, hrun⟩ := runEnabled_cons_eq_some h
    exact (ih hrest hrun).trans (exec_chkEn hu hreset hctrl)

/-- A CHK byte is accepted while the holding register is empty (R71, R72). -/
theorem runEnabled_chkByte {s : State} (hs : s.rxSt = .chk) (hempty : s.outValid = false) (b : Byte) :
    runEnabled [.rxByte b] s = some (acceptChk b s) := by
  have hfree : ¬ (s.rxSt = .chk ∧ s.outValid = true) := by simp [hempty]
  have haccept : acceptByte b s = acceptChk b s := by simp only [acceptByte, hs]
  rw [← haccept]
  exact runEnabled_deliverBytes_cons hfree b []

/-- What a CHK byte does to an empty holding register and to RX_DROP_CNT, by match and by CHK_EN (R71). -/
theorem acceptChk_verdict (b : Byte) {s : State} (hempty : s.outValid = false) :
    (b ≠ ~~~ s.rxSum → s.chkEn = true →
      (acceptChk b s).outValid = false ∧ (acceptChk b s).rxDropCnt = s.rxDropCnt + 1#32) ∧
    (b ≠ ~~~ s.rxSum → s.chkEn = false →
      (acceptChk b s).outValid = true ∧ (acceptChk b s).outFrame.chkOk = false ∧
        (acceptChk b s).rxDropCnt = s.rxDropCnt) ∧
    (b = ~~~ s.rxSum →
      (acceptChk b s).outValid = true ∧ (acceptChk b s).outFrame.chkOk = true ∧
        (acceptChk b s).rxDropCnt = s.rxDropCnt) := by
  refine ⟨fun hb hen => ?_, fun hb hen => ?_, fun hb => ?_⟩
  · rw [acceptChk_of_mismatch_checked hb hen]
    exact ⟨hempty, rfl⟩
  · rw [acceptChk_of_mismatch_unchecked hb hen]
    exact ⟨rfl, rfl, rfl⟩
  · rw [acceptChk_of_match hb]
    exact ⟨rfl, rfl, rfl⟩

/-- A CTRL write followed by operations that leave CTRL alone is in force when the CHK byte comes (R41, R103). -/
theorem runEnabled_ctrlWrite_chkByte {val : Word32} {between : List Instr} {s u : State}
    (hcalm : ∀ i ∈ between, i ≠ .reset ∧ ∀ v, i ≠ .csrWr 0x00#8 v)
    (h : runEnabled (.csrWr 0x00#8 val :: between) s = some u) (hs : u.rxSt = .chk)
    (hempty : u.outValid = false) (b : Byte) :
    u.chkEn = val.getLsbD 0 ∧
      runEnabled (.csrWr 0x00#8 val :: between ++ [.rxByte b]) s = some (acceptChk b u) := by
  constructor
  · rw [runEnabled_ctrlWrite_cons] at h
    exact (runEnabled_chkEn hcalm h).trans (ctrlWritten_chkEn val s)
  · rw [runEnabled_append, h, Option.bind_some, runEnabled_chkByte hs hempty]

/-- Up to the CHK byte the deframer reads nothing a CTRL write leaves (R70). -/
theorem acceptByte_ctrlWritten (b : Byte) (val : Word32) {s : State} (hs : s.rxSt ≠ .chk) :
    acceptByte b (ctrlWritten val s) = ctrlWritten val (acceptByte b s) := by
  have hst : (ctrlWritten val s).rxSt = s.rxSt := rfl
  rw [acceptByte, acceptByte, hst]
  cases h : s.rxSt with
  | hunt =>
    simp only [acceptHunt]
    split <;> rfl
  | chk => exact absurd h hs
  | sop2 | mrsp | seq | dlen | data => rfl

/-- A CTRL write after bytes none of which is a CHK byte does what it would have done before them (R41). -/
theorem runEnabled_ctrlWrite_first (val : Word32) {as : List Byte} {s : State}
    (hbefore : ∀ j < as.length, ∃ t, runEnabled (deliverBytes (as.take j)) s = some t ∧ t.rxSt ≠ .chk)
    (is : List Instr) :
    runEnabled (deliverBytes as ++ .csrWr 0x00#8 val :: is) s =
      runEnabled (deliverBytes as ++ is) (ctrlWritten val s) := by
  induction as generalizing s with
  | nil => exact runEnabled_ctrlWrite_cons val is s
  | cons b bs ih =>
    obtain ⟨_, hnow, hs⟩ := hbefore 0 (Nat.zero_lt_succ _)
    cases hnow
    have hs' : (ctrlWritten val s).rxSt ≠ .chk := hs
    have hbefore' : ∀ j < bs.length, ∃ t,
        runEnabled (deliverBytes (bs.take j)) (acceptByte b s) = some t ∧ t.rxSt ≠ .chk := by
      intro j hj
      obtain ⟨t, ht, hne⟩ := hbefore (j + 1) (Nat.succ_lt_succ hj)
      rw [List.take_succ_cons, runEnabled_deliverBytes_cons fun h => hs h.1] at ht
      exact ⟨t, ht, hne⟩
    rw [runEnabled_append, runEnabled_append, runEnabled_deliverBytes_cons fun h => hs h.1,
      runEnabled_deliverBytes_cons fun h => hs' h.1, ← runEnabled_append, ← runEnabled_append,
      acceptByte_ctrlWritten b val hs]
    exact ih hbefore'

theorem payloadState_rxSt_of_partial (s : State) (sop2 mrsp seq : Byte) {dlen : Byte} {pay : List Byte}
    (h : pay.length < dlen.toNat) : (payloadState s sop2 mrsp seq dlen pay).rxSt = .data :=
  if_neg (Nat.ne_of_lt h)

/-- No byte of an inbound frame before its last is a CHK byte (R49, R70). -/
theorem runEnabled_inboundBody_take_ne_chk {s : State} (hs : s.rxSt = .hunt) (sop2 mrsp seq : Byte)
    {data : List Byte} (hlen : data.length = (u8 data.length).toNat) {j : Nat}
    (hj : j < (inboundBody sop2 mrsp seq data).length) :
    ∃ t, runEnabled (deliverBytes ((inboundBody sop2 mrsp seq data).take j)) s = some t ∧
      t.rxSt ≠ .chk := by
  match j with
  | 0 | 1 | 2 | 3 | 4 =>
    simp [inboundBody, runEnabled_deliverBytes_cons, acceptByte, hs, acceptHunt, acceptSop2,
      acceptMrsp, acceptSeq]
  | k + 5 =>
    have hk : k < data.length := Nat.lt_of_add_lt_add_right hj
    have hpay : (data.take k).length < (u8 data.length).toNat := by
      rw [List.length_take_of_le (Nat.le_of_lt hk), ← hlen]
      exact hk
    refine ⟨_, runEnabled_headerPayload hs sop2 mrsp seq (Nat.le_of_lt hpay), ?_⟩
    exact payloadState_rxSt_of_partial s sop2 mrsp seq hpay ▸ nofun

/-- A CTRL write at any place of an inbound frame up to its CHK byte leaves the deframer where it would be had the write
come first (R41, R70). -/
theorem runEnabled_inboundBody_ctrlWrite {s : State} (hs : s.rxSt = .hunt) (val : Word32)
    (sop2 mrsp seq : Byte) {data : List Byte} (hlen : data.length = (u8 data.length).toNat) (k : Nat) :
    runEnabled (deliverBytes ((inboundBody sop2 mrsp seq data).take k) ++
        .csrWr 0x00#8 val :: deliverBytes ((inboundBody sop2 mrsp seq data).drop k)) s =
      some (payloadState (ctrlWritten val s) sop2 mrsp seq (u8 data.length) data) := by
  have hs' : (ctrlWritten val s).rxSt = .hunt := hs
  rw [runEnabled_ctrlWrite_first val, ← deliverBytes_append, List.take_append_drop]
  · exact runEnabled_headerPayload hs' sop2 mrsp seq (Nat.le_of_eq hlen)
  · intro j hj
    obtain ⟨hjk, hjlen⟩ := Nat.lt_min.1 (List.length_take ▸ hj)
    rw [List.take_take, Nat.min_eq_left (Nat.le_of_lt hjk)]
    exact runEnabled_inboundBody_take_ne_chk hs sop2 mrsp seq hlen hjlen

/-! ### The statements -/

/-- Settles O56: the framer is idle, the deframer hunts and no frame waits. -/
theorem powerOnMeetsTheInvariant : Obligations.PowerOnMeetsTheInvariant :=
  (inv_iff State.reset).2 ⟨framerInv_of_idle rfl rfl, deframerInv_of_empty rfl rfl rfl⟩

/-- Settles O42: RESET clears each of these elements to the value power-on gives it. -/
theorem powerOnIsTheResetColumn : Obligations.PowerOnIsTheResetColumn := by
  intro s t h
  obtain rfl := exec_reset_eq h
  exact ⟨⟨rfl, rfl, rfl, rfl, rfl⟩, ⟨rfl, rfl, rfl⟩, rfl, rfl, rfl, by decide, by decide⟩

/-- Settles O43: after RESET nothing is in flight and no frame waits, so O19 and O29 leave only what the run accepts and
delivers. -/
theorem resetAbandonsWorkInProgress : Obligations.ResetAbandonsWorkInProgress := by
  intro s t is u h
  obtain ⟨hinv, hidle, hempty, hsent, hdrops, hnoise⟩ := exec_reset_idle h
  refine ⟨hdrops, hnoise, fun hreset hrun => ⟨?_, ?_⟩⟩
  · obtain ⟨left, hleft⟩ := runEnabled_txOut_prefix hrun
    have hstream := outboundStreamIsConcatenation is t u hinv hreset hrun
    rw [hidle, List.append_nil, ← hleft, List.append_assoc, List.append_cancel_left_eq] at hstream
    exact ⟨left, by rw [← hsent, hleft], toSend u, hstream⟩
  · have horder := framesArePoppedInArrivalOrder is t u hreset hrun
    rw [hempty, List.nil_append] at horder
    exact ⟨waitingFrame u, horder.symm⟩

/-- Settles O33: no operation in between changes the CHK_EN written, and the CHK byte reads it. -/
theorem chkEnGovernsTheFrameInProgress : Obligations.ChkEnGovernsTheFrameInProgress := by
  refine ⟨fun val b s hs hempty hb => ?chkNext, fun val between b s u hcalm h hs hempty => ?between,
    fun val sop2 mrsp seq c data s k hmax hs hempty => ?anyPlace⟩
  case chkNext =>
    obtain ⟨hdropped, hdelivered, _⟩ := acceptChk_verdict b (s := ctrlWritten val s) hempty
    rw [runEnabled_ctrlWrite_cons]
    exact ⟨_, runEnabled_chkByte (s := ctrlWritten val s) hs hempty b, hdropped hb, hdelivered hb⟩
  case between =>
    obtain ⟨hen, hrun⟩ := runEnabled_ctrlWrite_chkByte hcalm h hs hempty b
    rw [← hen]
    exact ⟨_, hrun, acceptChk_verdict b hempty⟩
  case anyPlace =>
    have hlen : data.length = (u8 data.length).toNat := by rw [u8_toNat]; omega
    intro bs _ hc
    have hbody := runEnabled_inboundBody_ctrlWrite hs val sop2 mrsp seq hlen k
    have hchk := payloadState_rxSt_of_whole (ctrlWritten val s) sop2 mrsp seq hlen
    have hb : c ≠ ~~~ (payloadState (ctrlWritten val s) sop2 mrsp seq (u8 data.length) data).rxSum :=
      payloadState_not_rxSum (ctrlWritten val s) sop2 mrsp seq hlen ▸ hc
    refine ⟨acceptChk c (payloadState (ctrlWritten val s) sop2 mrsp seq (u8 data.length) data), ?_, ?_⟩
    · rw [deliverBytes_append, ← List.cons_append, ← List.append_assoc, runEnabled_append, hbody]
      exact runEnabled_chkByte hchk hempty c
    · cases hen : val.getLsbD 0 with
      | false =>
        rw [acceptChk_of_mismatch_unchecked hb hen]
        exact ⟨rfl, rfl, nofun, fun _ => ⟨rfl, rfl, rfl⟩⟩
      | true =>
        rw [acceptChk_of_mismatch_checked hb hen]
        exact ⟨rfl, rfl, fun _ => ⟨hempty, rfl⟩, nofun⟩

end Machine

end Sys2Proof
